-- ==== Sys2Proof/Word.lean ====
section
/-! DEFINITION. The words of the block (00_scope R12): bytes, 16-bit registers, one-bit levels. -/

namespace Sys2Proof

/-- The unit of every memory access and of every transfer (20_memory R60). -/
abbrev Byte := BitVec 8

/-- An operand register of 16 bits (10_state R21). -/
abbrev Word16 := BitVec 16

/-- The level of a pin or of a one-bit flag: `true` is 1 (00_scope R14). -/
abbrev Level := Bool

end Sys2Proof
end

