-- ==== Sys2Proof/Config.lean ====
section
/-! DEFINITION. The configuration of the block (10_state R59): the constants the spec fixes (00_scope R10), the
parameters it leaves open (00_scope R11) and the free values (93_implementation_defined U4, U6, U11), which are
uninterpreted constants without a body. -/

namespace Sys2Proof.Config

/-- WIDTH, 00_scope R10. -/
def width : Nat := 212
/-- HEIGHT, 00_scope R10. -/
def height : Nat := 104
/-- PLANE_BYTES = ceil(WIDTH × HEIGHT / 8), 00_scope R10; also BUF_DEPTH (92_eei_decisions D17). -/
def planeBytes : Nat := 2756
/-- THRESHOLD: a red channel below it is black, 42_encoder R197. -/
def threshold : Nat := 128

/-- CMD_BOOSTER_SOFT_START, 30_encoding R105. -/
def cmdBoosterSoftStart : Byte := 0x06#8
/-- CMD_POWER_ON, 30_encoding R106. -/
def cmdPowerOn : Byte := 0x04#8
/-- CMD_PANEL_SETTING, 30_encoding R107. -/
def cmdPanelSetting : Byte := 0x00#8
/-- CMD_VCOM_AND_INTERVAL, 30_encoding R108. -/
def cmdVcomAndInterval : Byte := 0x50#8
/-- CMD_RESOLUTION_SETTING, 30_encoding R109. -/
def cmdResolutionSetting : Byte := 0x61#8
/-- CMD_DISPLAY_BLACK, 30_encoding R110. -/
def cmdDisplayBlack : Byte := 0x10#8
/-- CMD_DISPLAY_RED, 30_encoding R111. -/
def cmdDisplayRed : Byte := 0x13#8
/-- CMD_REFRESH, 30_encoding R112. -/
def cmdRefresh : Byte := 0x12#8
/-- CMD_POWER_OFF, 30_encoding R113. -/
def cmdPowerOff : Byte := 0x02#8
/-- CMD_DEEP_SLEEP, 30_encoding R114. -/
def cmdDeepSleep : Byte := 0x07#8

/-- PANEL_SETTING_DATA, 00_scope R10. -/
def panelSettingData : Byte := 0x8F#8
/-- VCOM_DATA, 00_scope R10. -/
def vcomData : Byte := 0xF0#8
/-- DEEP_SLEEP_CHECK, 00_scope R10. -/
def deepSleepCheck : Byte := 0xA5#8
/-- HEIGHT[7:0], first byte of the resolution payload, 30_encoding R103. -/
def resHeightLow : Byte := BitVec.ofNat 8 height
/-- WIDTH[15:8], second byte of the resolution payload, 30_encoding R103. -/
def resWidthHigh : Byte := BitVec.ofNat 8 (width / 256)
/-- WIDTH[7:0], third byte of the resolution payload, 30_encoding R103. -/
def resWidthLow : Byte := BitVec.ofNat 8 width
/-- DEFAULT_FILL: the argument `clear()` stands for, 30_encoding R121. -/
def defaultFill : Byte := 0xFF#8

/-- T_RST_HIGH1 in ms, 00_scope R10. -/
def tRstHigh1 : Nat := 200
/-- T_RST_LOW in ms, 00_scope R10. -/
def tRstLow : Nat := 2
/-- T_RST_HIGH2 in ms, 00_scope R10. -/
def tRstHigh2 : Nat := 200
/-- T_REFRESH_SETTLE in ms, 00_scope R10. -/
def tRefreshSettle : Nat := 100
/-- T_BUSY_POLL in ms, 00_scope R10. -/
def tBusyPoll : Nat := 100
/-- T_SLEEP_SETTLE in ms, 00_scope R10. -/
def tSleepSettle : Nat := 2000

/-- BOOSTER[0..2], an open parameter (10_state R45, 92_eei_decisions D10). Log 19. -/
opaque booster : Fin 3 → Byte

/-- How far DBUF_DEPTH exceeds 1, an open parameter (92_eei_decisions D30). Log 19. -/
opaque dbufDepthLessOne : Nat
/-- DBUF_DEPTH, at least 1 (00_scope R11). -/
def dbufDepth : Nat := dbufDepthLessOne + 1

/-- How far TICKS_PER_MS exceeds 1, an open parameter (92_eei_decisions D1). Log 19. -/
opaque ticksPerMsLessOne : Nat
/-- TICKS_PER_MS, a positive natural (00_scope R11, 60_exceptions R243). -/
def ticksPerMs : Nat := ticksPerMsLessOne + 1

/-- SPI_BUS, handed to the SPI collaborator at `Acq(SPI)` (10_state R59, 92_eei_decisions D24). Log 19. -/
opaque spiBus : Nat
/-- SPI_CHANNEL (10_state R59). Log 19. -/
opaque spiChannel : Nat
/-- SPI_CLOCK_HZ: the one clock rate of all transfers (40_transport R137). Log 19. -/
opaque spiClockHz : Nat

/-- PINMAP: one pin identifier for each of the four roles (10_state R40). -/
structure PinMap where
  /-- the pin of the RESET role -/
  rst : Nat
  /-- the pin of the DATA_COMMAND_SELECT role -/
  dc : Nat
  /-- the pin of the CHIP_SELECT role -/
  cs : Nat
  /-- the pin of the BUSY role -/
  busy : Nat
  deriving DecidableEq, Repr, Inhabited

/-- PINMAP of this block, an open parameter no rule reads (10_state R40, 92_eei_decisions D25). Log 19, 20. -/
opaque pinMap : PinMap

/-- Free value: the SPI collaborator has not finished the n-th asked-for answer yet (20_memory R71). Log 1. -/
opaque xferPending : Nat → Bool
/-- Free value: the n-th answer of the SPI collaborator is `fail` (00_scope R9). Log 1. -/
opaque xferFails : Nat → Bool
/-- Free value: the level of BUSY at the n-th sample (00_scope R9, 93_implementation_defined U11). Log 2. -/
opaque busyLevel : Nat → Level

/-- Free value: PH while the sequencer is idle (10_state R58, 93_implementation_defined U4). Log 3. -/
opaque freePh : Nat → BitVec 6
/-- Free value: SUB while the sequencer is idle. Log 3. -/
opaque freeSub : Nat → BitVec 2
/-- Free value: IDX while the sequencer is idle. Log 3. -/
opaque freeIdx : Nat → BitVec 16
/-- Free value: Y while the sequencer is idle. Log 3. -/
opaque freeY : Nat → BitVec 8
/-- Free value: X while the sequencer is idle. Log 3. -/
opaque freeX : Nat → BitVec 7
/-- Free value: STRIDE while the sequencer is idle. Log 3. -/
opaque freeStride : Nat → BitVec 8
/-- Free value: XFAIL while the sequencer is idle. Log 3. -/
opaque freeXfail : Nat → Bool

/-- Free value: the byte of a buffer nothing has written since hardware reset number `epoch`, by the buffer's number
and the byte's index (10_state R58, 93_implementation_defined U6). Log 4. -/
opaque unwrittenByte : (epoch buffer index : Nat) → Byte

/-- Free value: the red channel at column x, row y of free raster number `n` (60_exceptions R232). Log 6. -/
opaque freePixel : (n x y : Nat) → Byte

end Sys2Proof.Config
end

