-- ==== Sys2Proof/Syntax.lean ====
section
/-! DEFINITION. The instructions: one constructor for each of the 26 rows of spec/opcode_table.json. Ten are the panel
commands of the wire (30_encoding R105 to R114); sixteen are the host's request words (30_encoding R94, R115), each with
its argument byte (R93). -/

namespace Sys2Proof

/-- One row of the code table. -/
inductive Instr where
  /-- BOOSTER_SOFT_START, wire code 0x06 (R105) -/
  | boosterSoftStart
  /-- POWER_ON, wire code 0x04 (R106) -/
  | powerOn
  /-- PANEL_SETTING, wire code 0x00 (R107) -/
  | panelSetting
  /-- VCOM_AND_INTERVAL, wire code 0x50 (R108) -/
  | vcomAndInterval
  /-- RESOLUTION_SETTING, wire code 0x61 (R109) -/
  | resolutionSetting
  /-- DISPLAY_BLACK, wire code 0x10 (R110) -/
  | displayBlack
  /-- DISPLAY_RED, wire code 0x13 (R111) -/
  | displayRed
  /-- REFRESH, wire code 0x12 (R112) -/
  | refresh
  /-- POWER_OFF, wire code 0x02 (R113) -/
  | powerOff
  /-- DEEP_SLEEP, wire code 0x07 (R114) -/
  | deepSleep
  /-- RESET, request op 0x1, argument ignored (R164) -/
  | reset (arg : Byte)
  /-- INIT, request op 0x2, argument ignored (R165) -/
  | init (arg : Byte)
  /-- DISPLAY, request op 0x3, argument ignored (R167) -/
  | display (arg : Byte)
  /-- CLEAR, request op 0x4, argument the fill byte (R168) -/
  | clear (fill : Byte)
  /-- READBUSY, request op 0x5, argument ignored (R166) -/
  | readbusy (arg : Byte)
  /-- SLEEP, request op 0x6, argument ignored (R169) -/
  | sleep (arg : Byte)
  /-- SENDCMD, request op 0x7, argument the command byte (R132) -/
  | sendcmd (code : Byte)
  /-- SENDDATA, request op 0x8, argument the data byte (R134) -/
  | senddata (data : Byte)
  /-- SENDBUF, request op 0x9, argument ignored (R135) -/
  | sendbuf (arg : Byte)
  /-- ENCODE, request op 0xA, bit 0 of the argument the destination plane (R206) -/
  | encode (arg : Byte)
  /-- reserved op 0x0 (R115) -/
  | reserved0 (arg : Byte)
  /-- reserved op 0xB (R115) -/
  | reservedB (arg : Byte)
  /-- reserved op 0xC (R115) -/
  | reservedC (arg : Byte)
  /-- reserved op 0xD (R115) -/
  | reservedD (arg : Byte)
  /-- reserved op 0xE (R115) -/
  | reservedE (arg : Byte)
  /-- reserved op 0xF (R115) -/
  | reservedF (arg : Byte)
  deriving DecidableEq, Repr

end Sys2Proof
end

