-- ==== Sys2Proof/WellFormed.lean ====
section
/-! DEFINITION. What is well formed: instructions, the words they are read from, and the pin map. -/

namespace Sys2Proof

/-- Every term of `Instr` is well formed: its one operand is a byte, and every byte is a legal argument of every request
(30_encoding R117), the wire commands having none. Written out by constructor so that a new row must be considered. -/
def Instr.wf : Instr → Bool
  | .boosterSoftStart | .powerOn | .panelSetting | .vcomAndInterval | .resolutionSetting => true
  | .displayBlack | .displayRed | .refresh | .powerOff | .deepSleep => true
  | .reset _ | .init _ | .display _ | .clear _ | .readbusy _ | .sleep _ => true
  | .sendcmd _ | .senddata _ | .sendbuf _ | .encode _ => true
  | .reserved0 _ | .reservedB _ | .reservedC _ | .reservedD _ | .reservedE _ | .reservedF _ => true

/-- A request word has 12 bits (30_encoding R93). -/
def requestWordWf (w : Nat) : Bool := w < 4096

/-- A wire code has 8 bits (30_encoding R91). -/
def wireWordWf (w : Nat) : Bool := w < 256

/-- The premise on the integrator: four roles on four distinct pins (93_implementation_defined U3, 10_state R40). -/
def Config.PinMap.wf (p : PinMap) : Bool :=
  p.rst != p.dc && p.rst != p.cs && p.rst != p.busy && p.dc != p.cs && p.dc != p.busy && p.cs != p.busy

/-- The byte list of a data frame has one byte or more (30_encoding R92, R118). -/
def dataFrameWf (bs : List Byte) : Bool := !bs.isEmpty

end Sys2Proof
end

