-- ==== Sys2Proof/Decode.lean ====
section
/-! DEFINITION. The two encodings of 30_encoding: the command byte of a command frame (R91) and the host's request word
(R93), each with its decoder, total and rejecting by name, and the encoder beside it. -/

namespace Sys2Proof

/-- Where a code is read: the wire (DC = 0, R91) or the host's request port (R93). -/
inductive Space where
  | wire
  | host
  deriving DecidableEq, Repr

/-- Why a list of bytes is no instruction. -/
inductive DecodeError where
  /-- there are fewer bytes than the code has -/
  | tooShort
  /-- a wire byte outside the ten of R105 to R114; the block may still send it (R116) -/
  | notInCommandSet (code : Byte)
  /-- a request of more than 12 bits (R93) -/
  | wordTooWide
  deriving DecidableEq, Repr

/-- The panel command set, "bit-exact, must match" (30_encoding R105 to R114). -/
def wireTable : List (Byte × Instr) :=
  [(Config.cmdBoosterSoftStart, .boosterSoftStart), (Config.cmdPowerOn, .powerOn),
   (Config.cmdPanelSetting, .panelSetting), (Config.cmdVcomAndInterval, .vcomAndInterval),
   (Config.cmdResolutionSetting, .resolutionSetting), (Config.cmdDisplayBlack, .displayBlack),
   (Config.cmdDisplayRed, .displayRed), (Config.cmdRefresh, .refresh),
   (Config.cmdPowerOff, .powerOff), (Config.cmdDeepSleep, .deepSleep)]

/-- The instruction of a command byte, if it is one of the ten. -/
def decodeWire (c : Byte) : Except DecodeError Instr :=
  match wireTable.lookup c with
  | some i => .ok i
  | none => .error (.notInCommandSet c)

/-- The op field of a request word, bits 11 to 8 (30_encoding R93). -/
def reqOp (w : BitVec 12) : BitVec 4 := w.extractLsb' 8 4

/-- The arg field of a request word, bits 7 to 0 (30_encoding R93). -/
def reqArg (w : BitVec 12) : Byte := w.extractLsb' 0 8

/-- The instruction of a request word: every word is one (30_encoding R94, R115). -/
def decodeRequest (w : BitVec 12) : Instr :=
  match (reqOp w).toNat with
  | 0x0 => .reserved0 (reqArg w)
  | 0x1 => .reset (reqArg w)
  | 0x2 => .init (reqArg w)
  | 0x3 => .display (reqArg w)
  | 0x4 => .clear (reqArg w)
  | 0x5 => .readbusy (reqArg w)
  | 0x6 => .sleep (reqArg w)
  | 0x7 => .sendcmd (reqArg w)
  | 0x8 => .senddata (reqArg w)
  | 0x9 => .sendbuf (reqArg w)
  | 0xA => .encode (reqArg w)
  | 0xB => .reservedB (reqArg w)
  | 0xC => .reservedC (reqArg w)
  | 0xD => .reservedD (reqArg w)
  | 0xE => .reservedE (reqArg w)
  | _ => .reservedF (reqArg w)

/-- Two bytes as a number, the low byte first. DESIGN CHOICE, log 14: the spec's request word is a port of 12 lines and
has no byte order; the model lays it out low byte first where bytes are asked for. -/
def wordOfBytes (lo hi : Byte) : Nat := lo.toNat + 256 * hi.toNat

/-- The instruction at the head of a list of bytes, with the bytes after it. -/
def decode (sp : Space) (bytes : List Byte) : Except DecodeError (Instr × List Byte) :=
  match sp, bytes with
  | .wire, c :: rest =>
    match decodeWire c with
    | .ok i => .ok (i, rest)
    | .error e => .error e
  | .host, lo :: hi :: rest =>
    if requestWordWf (wordOfBytes lo hi) then .ok (decodeRequest (BitVec.ofNat 12 (wordOfBytes lo hi)), rest)
    else .error .wordTooWide
  | _, _ => .error .tooShort

/-- The space an instruction is encoded in. -/
def Instr.space : Instr → Space
  | .boosterSoftStart | .powerOn | .panelSetting | .vcomAndInterval | .resolutionSetting => .wire
  | .displayBlack | .displayRed | .refresh | .powerOff | .deepSleep => .wire
  | .reset _ | .init _ | .display _ | .clear _ | .readbusy _ | .sleep _ => .host
  | .sendcmd _ | .senddata _ | .sendbuf _ | .encode _ => .host
  | .reserved0 _ | .reservedB _ | .reservedC _ | .reservedD _ | .reservedE _ | .reservedF _ => .host

/-- The request word of an op code and an argument: `op << 8 OR arg` (30_encoding R93, R94). -/
def requestWord (op : BitVec 4) (arg : Byte) : BitVec 12 := op.setWidth 12 <<< 8 ||| arg.setWidth 12

/-- The two bytes of a request word, low byte first (log 14). -/
def requestBytes (op : BitVec 4) (arg : Byte) : List Byte :=
  [reqArg (requestWord op arg), (reqOp (requestWord op arg)).setWidth 8]

/-- The bytes of an instruction, from the tables of 30_encoding R94, R105 to R115. -/
def encode : Instr → List Byte
  | .boosterSoftStart => [Config.cmdBoosterSoftStart]
  | .powerOn => [Config.cmdPowerOn]
  | .panelSetting => [Config.cmdPanelSetting]
  | .vcomAndInterval => [Config.cmdVcomAndInterval]
  | .resolutionSetting => [Config.cmdResolutionSetting]
  | .displayBlack => [Config.cmdDisplayBlack]
  | .displayRed => [Config.cmdDisplayRed]
  | .refresh => [Config.cmdRefresh]
  | .powerOff => [Config.cmdPowerOff]
  | .deepSleep => [Config.cmdDeepSleep]
  | .reset a => requestBytes 0x1#4 a
  | .init a => requestBytes 0x2#4 a
  | .display a => requestBytes 0x3#4 a
  | .clear f => requestBytes 0x4#4 f
  | .readbusy a => requestBytes 0x5#4 a
  | .sleep a => requestBytes 0x6#4 a
  | .sendcmd c => requestBytes 0x7#4 c
  | .senddata b => requestBytes 0x8#4 b
  | .sendbuf a => requestBytes 0x9#4 a
  | .encode a => requestBytes 0xA#4 a
  | .reserved0 a => requestBytes 0x0#4 a
  | .reservedB a => requestBytes 0xB#4 a
  | .reservedC a => requestBytes 0xC#4 a
  | .reservedD a => requestBytes 0xD#4 a
  | .reservedE a => requestBytes 0xE#4 a
  | .reservedF a => requestBytes 0xF#4 a

/-- `nbits` bits of `w` as the table numbers them: a row of at most 8 bits is a wire code, a longer one a request. -/
def decodeTableWord (nbits w : Nat) : Option Instr :=
  let r := if nbits ≤ 8 then (if wireWordWf w then decode .wire [BitVec.ofNat 8 w] else .error .wordTooWide)
    else if w < 65536 then decode .host [BitVec.ofNat 8 w, BitVec.ofNat 8 (w / 256)] else .error .wordTooWide
  match r with
  | .ok (i, _) => some i
  | .error _ => none

/-- `clear()` with no argument is `clear(0xFF)` (30_encoding R121). -/
def clearDefault : Instr := .clear Config.defaultFill

/-- `encode(raster)` with no destination is the black plane (30_encoding R121). -/
def encodeDefault : Instr := .encode 0#8

end Sys2Proof
end

