-- ==== Sys2Proof/Machine/State.lean ====
section
/-! DEFINITION. The state of the block (10_state R20), the events of its boundary (00_scope R14), the inputs the host and
the environment still have to give, the faults and refusals of a step, and the state after hardware reset (10_state R58). -/

namespace Sys2Proof.Machine

/-- OP: the operation in progress (10_state R30). The 4-bit codes that name no operation are never held. -/
inductive Op where
  | idle | reset | init | display | clear | readbusy | sleep | sendcmd | senddata | sendbuf | encode
  deriving DecidableEq, Repr

/-- The 4-bit code of an operation (30_encoding R94). -/
def Op.code : Op → BitVec 4
  | .idle => 0x0#4 | .reset => 0x1#4 | .init => 0x2#4 | .display => 0x3#4 | .clear => 0x4#4 | .readbusy => 0x5#4
  | .sleep => 0x6#4 | .sendcmd => 0x7#4 | .senddata => 0x8#4 | .sendbuf => 0x9#4 | .encode => 0xA#4

/-- STATE: the session state (10_state R41, 60_exceptions R240). The code 3 is never held. -/
inductive Session where
  | uninitialized | initialized | sleeping
  deriving DecidableEq, Repr

/-- The 2-bit code of a session state (10_state R41). -/
def Session.code : Session → BitVec 2
  | .uninitialized => 0#2 | .initialized => 1#2 | .sleeping => 2#2

/-- The three output roles (00_scope R14, R18). -/
inductive OutPin where
  | rst | dc | cs
  deriving DecidableEq, Repr

/-- The two handles (10_state R42). -/
inductive Handle where
  | gpio | spi
  deriving DecidableEq, Repr

/-- The result of a transfer (00_scope R9). -/
inductive XferResult where
  | ok | fail
  deriving DecidableEq, Repr

/-- What the SPI collaborator says at one step of a transfer: not finished yet (20_memory R71), or its result. -/
inductive XferAnswer where
  | pending
  | answer (r : XferResult)
  deriving DecidableEq, Repr

/-- The event alphabet of 00_scope R14. -/
inductive Event where
  /-- `Acq(h)` -/
  | acq (h : Handle)
  /-- `Rel(SPI)` -/
  | relSpi
  /-- `Pin(r, v)` -/
  | pin (r : OutPin) (v : Level)
  /-- `Delay(t)`, t in milliseconds -/
  | delay (t : Nat)
  /-- `Xfer(bs, res)` -/
  | xfer (bs : List Byte) (res : XferResult)
  /-- `Busy(v)` -/
  | busy (v : Level)
  /-- `Ret(op, e)`: the 4-bit op field (a rejected request may name a reserved one) and the error code -/
  | ret (op : BitVec 4) (e : BitVec 2)
  deriving DecidableEq, Repr

/-- The three exceptions that are reported (60_exceptions R221). -/
inductive Exc where
  | transferFailure | invalidState | badRequest
  deriving DecidableEq, Repr

/-- The error code of an exception (60_exceptions R221). -/
def Exc.code : Exc → BitVec 2
  | .transferFailure => 1#2 | .invalidState => 2#2 | .badRequest => 3#2

/-- The byte buffers of the block (10_state R50). -/
inductive Buf where
  | plane0 | plane1 | dbuf
  deriving DecidableEq, Repr

/-- The number that stands for a buffer among the free values. -/
def Buf.number : Buf → Nat
  | .plane0 => 0 | .plane1 => 1 | .dbuf => 2

/-- The bytes a buffer has (10_state R50). -/
def Buf.depth : Buf → Nat
  | .plane0 => Config.planeBytes | .plane1 => Config.planeBytes | .dbuf => Config.dbufDepth

/-- A byte memory: the bytes written so far, by rising index, one entry for an index. An index that is not listed holds
no written byte; what it reads as is `State.bufByte`'s to say. Log 5. -/
abbrev Memory := List Host.Cell

/-- The canonical form: indices strictly rise. -/
def Memory.wf : Memory → Bool
  | [] => true
  | [_] => true
  | c :: d :: m => decide (c.1 < d.1) && Memory.wf (d :: m)

/-- The raster at the RASTER port (10_state R53): plain data, read only. `free n` is a raster of which nothing is said;
`cells bg px` has the red channel `bg` everywhere but at the listed pixels, the pixel in column x and row y under the
number 65536 y + x. Log 6. -/
inductive Raster where
  | free (n : Nat)
  | cells (background : Byte) (pixels : List Host.Cell)
  deriving DecidableEq, Repr

/-- What the host does at its ports while the sequencer is idle (60_exceptions R233, 10_state R57). Log 7. -/
inductive HostAct where
  /-- present request word `w` with `op_valid` -/
  | request (w : BitVec 12)
  /-- write `v` to register number `n` (10_state R44) -/
  | writeReg (n : BitVec 4) (v : Word16)
  /-- write byte `v` at index `i` of a buffer -/
  | writeBuf (b : Buf) (i : Word16) (v : Byte)
  /-- present a raster at the RASTER port -/
  | present (r : Raster)
  deriving DecidableEq, Repr

/-- The sequencer's position within an operation and its counters (10_state R22, R30). Unspecified while OP is IDLE. -/
structure SeqRegs where
  /-- PH: row of the phase table -/
  ph : BitVec 6
  /-- SUB: step inside a frame or a busy-wait -/
  sub : BitVec 2
  /-- IDX: byte index -/
  idx : BitVec 16
  /-- Y: native coordinate y of the packer -/
  y : BitVec 8
  /-- X: native coordinate x of the packer -/
  x : BitVec 7
  /-- STRIDE: min(212, RW) -/
  stride : BitVec 8
  /-- XFAIL: the transfer of the frame in progress failed -/
  xfail : Bool
  deriving DecidableEq, Repr

/-- The state of the machine: what 10_state R20 lists, the ghost trace (R56), the raster (R53), and the model's own fields
for inputs and free values (INVENTORY.md, State). -/
structure State where
  /-- ARG (R21) -/
  arg : Byte
  /-- LEN0 (R21) -/
  len0 : Word16
  /-- LEN1 (R21) -/
  len1 : Word16
  /-- DLEN (R21) -/
  dlen : Word16
  /-- RW (R21) -/
  rw : Word16
  /-- RH (R21) -/
  rh : Word16
  /-- OP (R30) -/
  op : Op
  /-- PH, SUB, IDX, Y, X, STRIDE, XFAIL (R22, R30) -/
  seq : SeqRegs
  /-- ERR (R35) -/
  err : BitVec 2
  /-- DONE (R35) -/
  done : Bool
  /-- LASTBUSY (R35) -/
  lastBusy : Level
  /-- STATE (R41) -/
  session : Session
  /-- GPIO_OPEN, which is also OE (R42, R43) -/
  gpioOpen : Bool
  /-- SPI_OPEN (R42) -/
  spiOpen : Bool
  /-- RST_L (R43) -/
  rstL : Level
  /-- DC_L (R43) -/
  dcL : Level
  /-- CS_L (R43) -/
  csL : Level
  /-- PLANE0 (R51) -/
  plane0 : Memory
  /-- PLANE1 (R51) -/
  plane1 : Memory
  /-- DBUF (R52) -/
  dbuf : Memory
  /-- the trace, oldest event first (R56, ghost) -/
  trace : List Event
  /-- the raster at the RASTER port (R53) -/
  raster : Raster
  /-- the host's coming actions, log 7 -/
  host : List HostAct
  /-- the SPI collaborator's coming answers, log 1 -/
  xferIn : List XferAnswer
  /-- how many SPI answers were taken, log 1 -/
  xferDrawn : Nat
  /-- the coming levels of BUSY, one for each sample, log 2 -/
  busyIn : List Level
  /-- how many BUSY samples were taken, log 2 -/
  busyDrawn : Nat
  /-- the coming levels of rst_n, one for each step; 1 when the list has ended, log 8 -/
  rstIn : List Level
  /-- how many hardware resets there were, log 4 -/
  epoch : Nat
  /-- how many free sets of SeqRegs were taken, log 3 -/
  draws : Nat
  deriving DecidableEq, Repr

/-- Why the machine stops. No instruction's meaning ends in one of these. -/
inductive Fault where
  /-- Raised by `fetch` when OP is not IDLE and PH is past the last row of its table: no run reaches this (10_state R32),
  and the spec gives such a position no step. Safe. Log 18. -/
  | noSuchPhase
  /-- Raised by `hostAct` when the host writes a byte at an index the buffer does not have (10_state R50): the spec gives
  such a write no effect. Safe. Log 17. -/
  | hostWriteOutside
  deriving DecidableEq, Repr

/-- Why an instruction has no meaning here. -/
inductive Refusal where
  /-- Raised by `exec` for an instruction without a meaning yet; no arm does. Safe. -/
  | notModelled (mnemonic : String)
  deriving DecidableEq, Repr

/-- The n-th free set of the sequencer's registers (10_state R58: "any value, under no law"). Log 3. -/
def SeqRegs.free (n : Nat) : SeqRegs where
  ph := Config.freePh n
  sub := Config.freeSub n
  idx := Config.freeIdx n
  y := Config.freeY n
  x := Config.freeX n
  stride := Config.freeStride n
  xfail := Config.freeXfail n

/-- The state after hardware reset (10_state R58). PH, SUB and the internal counters are free values (log 3), the buffers
hold free bytes (log 4), the raster is free (log 6), and the input lists are empty (log 1, 2, 7, 8). -/
def State.reset : State where
  arg := 0#8
  len0 := 0#16
  len1 := 0#16
  dlen := 0#16
  rw := 0#16
  rh := 0#16
  op := .idle
  seq := SeqRegs.free 0
  err := 0#2
  done := false
  lastBusy := false
  session := .uninitialized
  gpioOpen := false
  spiOpen := false
  rstL := true
  dcL := false
  csL := true
  plane0 := []
  plane1 := []
  dbuf := []
  trace := []
  raster := .free 0
  host := []
  xferIn := []
  xferDrawn := 0
  busyIn := []
  busyDrawn := 0
  rstIn := []
  epoch := 0
  draws := 1

end Sys2Proof.Machine
end

