-- ==== Sys2Proof/Machine/Flags.lean ====
section
/-! DEFINITION. The three flags, ERR, DONE and LASTBUSY (10_state R35), and the register words that show state bits
(10_state R44). There are no condition codes. -/

namespace Sys2Proof.Machine

/-- Append an event to the trace (00_scope R13, `emit`). -/
def State.emit (e : Event) (s : State) : State := { s with trace := s.trace ++ [e] }

/-- The flags of a return: ERR takes the code, DONE pulses, and `Ret(op, e)` is emitted (10_state R35, 41_protocol R154). -/
def State.ret (opField : BitVec 4) (e : BitVec 2) (s : State) : State :=
  { s with err := e, done := true, trace := s.trace ++ [.ret opField e] }

/-- The flag of a BUSY sample: LASTBUSY takes the level, and `Busy(v)` is emitted (10_state R35). -/
def State.sampled (v : Level) (s : State) : State := { s with lastBusy := v, trace := s.trace ++ [.busy v] }

/-- The start of a tick: the DONE pulse of the tick before ends (10_state R35), and the level of rst_n is taken. Log 9. -/
def State.tick (s : State) : State := { s with done := false, rstIn := s.rstIn.tail }

/-- A level as a natural. -/
def bit (b : Bool) : Nat := if b then 1 else 0

/-- STATUS (10_state R44): STATE, ACTIVE, GPIO_OPEN, SPI_OPEN, LASTBUSY from bit 0 up. -/
def State.status (s : State) : Nat :=
  s.session.code.toNat + 4 * bit (s.op != .idle) + 8 * bit s.gpioOpen + 16 * bit s.spiOpen + 32 * bit s.lastBusy

/-- OE equals GPIO_OPEN (10_state R43). -/
def State.oe (s : State) : Bool := s.gpioOpen

/-- PINS (10_state R44): RST_L, DC_L, CS_L, OE from bit 0 up. -/
def State.pins (s : State) : Nat := bit s.rstL + 2 * bit s.dcL + 4 * bit s.csL + 8 * bit s.oe

end Sys2Proof.Machine
end

