-- ==== Sys2Proof/Machine/Ops.lean ====
section
/-! DEFINITION. The named operations over memory, registers and the environment's answers, the one way an exception is
taken (60_exceptions R226), the normal return (41_protocol R154), and hardware reset (70_reset R260). -/

namespace Sys2Proof.Machine

/-- The byte listed at an index, if one is. -/
def Memory.find? : Memory → Nat → Option Byte
  | [], _ => none
  | c :: m, a => if c.1 = a then some c.2 else Memory.find? m a

/-- Write one byte, keeping the indices rising. -/
def Memory.write : Memory → Nat → Byte → Memory
  | [], a, v => [(a, v)]
  | c :: m, a, v =>
    if a < c.1 then (a, v) :: c :: m
    else if c.1 = a then (a, v) :: m
    else c :: Memory.write m a v

/-- The memory of a buffer. -/
def State.buf (s : State) : Buf → Memory
  | .plane0 => s.plane0 | .plane1 => s.plane1 | .dbuf => s.dbuf

/-- `MemRead(b, i, 1)` (00_scope R13). A byte nothing has written since hardware reset is a free value (10_state R58,
93_implementation_defined U6, log 4). -/
def State.bufByte (s : State) (b : Buf) (i : Nat) : Byte :=
  ((s.buf b).find? i).getD (Config.unwrittenByte s.epoch b.number i)

/-- `MemWrite(b, i, 1, v)` (00_scope R13). -/
def State.setBuf (b : Buf) (i : Nat) (v : Byte) (s : State) : State :=
  match b with
  | .plane0 => { s with plane0 := s.plane0.write i v }
  | .plane1 => { s with plane1 := s.plane1.write i v }
  | .dbuf => { s with dbuf := s.dbuf.write i v }

/-- `LEN[p] <- v`; DBUF's length is DLEN. -/
def State.setLen (b : Buf) (v : Word16) (s : State) : State :=
  match b with
  | .plane0 => { s with len0 := v }
  | .plane1 => { s with len1 := v }
  | .dbuf => { s with dlen := v }

/-- The red channel at column x, row y (10_state R53, `Pix(x, y)`). -/
def Raster.pixel (r : Raster) (x y : Nat) : Byte :=
  match r with
  | .free n => Config.freePixel n x y
  | .cells bg px => (Memory.find? px (65536 * y + x)).getD bg

/-- Write the latch of an output role (41_protocol R152, `latch(r) <- v`). -/
def State.setLatch (r : OutPin) (v : Level) (s : State) : State :=
  match r with
  | .rst => { s with rstL := v }
  | .dc => { s with dcL := v }
  | .cs => { s with csL := v }

/-- `Pin(r, v)`: the latch is written and the event emitted, whether or not the level changes (41_protocol R155). -/
def State.pin (r : OutPin) (v : Level) (s : State) : State := (s.setLatch r v).emit (.pin r v)

/-- The answer of the SPI collaborator k answers from now: the listed one, or a free value (00_scope R9, log 1). -/
def State.xferAt (s : State) (k : Nat) : XferAnswer :=
  match s.xferIn[k]? with
  | some a => a
  | none =>
    if Config.xferPending (s.xferDrawn + k) then .pending
    else .answer (if Config.xferFails (s.xferDrawn + k) then .fail else .ok)

/-- One SPI answer is taken. -/
def State.popXfer (s : State) : State := { s with xferIn := s.xferIn.tail, xferDrawn := s.xferDrawn + 1 }

/-- The level of BUSY at the sample k samples from now: the listed one, or a free value (00_scope R9, log 2). -/
def State.busyAt (s : State) (k : Nat) : Level :=
  (s.busyIn[k]?).getD (Config.busyLevel (s.busyDrawn + k))

/-- One BUSY sample is taken. -/
def State.popBusy (s : State) : State := { s with busyIn := s.busyIn.tail, busyDrawn := s.busyDrawn + 1 }

/-- `ARG <- v` (41_protocol R153). -/
def State.withArg (v : Byte) (s : State) : State := { s with arg := v }

/-- `STATE <- st` (41_protocol R163). -/
def State.withSession (st : Session) (s : State) : State := { s with session := st }

/-- `GPIO_OPEN <- v` (10_state R42). -/
def State.withGpio (v : Bool) (s : State) : State := { s with gpioOpen := v }

/-- `SPI_OPEN <- v` (10_state R42). -/
def State.withSpi (v : Bool) (s : State) : State := { s with spiOpen := v }

/-- A raster is presented at the RASTER port (60_exceptions R232). -/
def State.withRaster (r : Raster) (s : State) : State := { s with raster := r }

/-- The host's coming actions (log 7). -/
def State.withHost (l : List HostAct) (s : State) : State := { s with host := l }

/-- The sequencer's registers are set (10_state R22). -/
def State.withSeq (q : SeqRegs) (s : State) : State := { s with seq := q }

/-- `next_phase` (10_state R31): PH + 1, SUB and IDX cleared. -/
def State.nextPhase (s : State) : State :=
  s.withSeq { s.seq with ph := s.seq.ph + 1#6, sub := 0#2, idx := 0#16 }

/-- `SUB <- v`. -/
def State.withSub (v : BitVec 2) (s : State) : State := s.withSeq { s.seq with sub := v }

/-- `OP <- IDLE`: PH, SUB and the internal counters become unspecified, that is free (60_exceptions R226, log 3). -/
def State.toIdle (s : State) : State := { s with op := .idle, seq := SeqRegs.free s.draws, draws := s.draws + 1 }

/-- `raise X` (60_exceptions R226): the one way an exception is taken. ERR takes its code, DONE pulses, `Ret` is emitted
for the operation asked for, and the sequencer is idle; nothing else changes. There is no handler and no saved state. -/
def State.raise (opField : BitVec 4) (x : Exc) (s : State) : State := (s.ret opField x.code).toIdle

/-- The normal return of an operation, the END row (41_protocol R154). -/
def State.finish (s : State) : State := (s.ret s.op.code 0#2).toIdle

/-- `SEQ <- (op, 0, 0, 0)` (41_protocol R153). -/
def State.start (op : Op) (s : State) : State :=
  { s with op := op, seq := { s.seq with ph := 0#6, sub := 0#2, idx := 0#16 } }

/-- Hardware reset (70_reset R260, R261): every field of the block takes its value of 10_state R58, wherever the block
was, with no `Ret`. The inputs are not the block's and stay; free values are taken anew. -/
def State.hardReset (s : State) : State :=
  { State.reset with
    seq := SeqRegs.free s.draws
    draws := s.draws + 1
    epoch := s.epoch + 1
    raster := s.raster
    host := s.host
    xferIn := s.xferIn
    xferDrawn := s.xferDrawn
    busyIn := s.busyIn
    busyDrawn := s.busyDrawn
    rstIn := s.rstIn.tail }

end Sys2Proof.Machine
end

