-- ==== Sys2Proof/Machine/Phase.lean ====
section
/-! DEFINITION. The phase tables: fixed logic, which no operation can change (20_memory R75). The kinds of phase are those
of 41_protocol R151 and 42_encoder R206; the operand forms say where a row's bytes come from (30_encoding R100). -/

namespace Sys2Proof.Machine

/-- Where the byte of a CMD row comes from. -/
inductive CmdForm where
  /-- a fixed panel command -/
  | const (c : Byte)
  /-- ARG (40_transport R132) -/
  | arg
  deriving DecidableEq, Repr

/-- Where the bytes of a DATA row come from. -/
inductive DataForm where
  /-- a fixed payload byte -/
  | const (b : Byte)
  /-- BOOSTER[k] (10_state R45) -/
  | booster (k : Fin 3)
  /-- ARG (40_transport R134) -/
  | arg
  /-- DBUF[0 .. DLEN - 1] (40_transport R135) -/
  | dbuf
  deriving DecidableEq, Repr

/-- Where the bytes of a LOOPDATA row come from, and so how many there are (41_protocol R159, R167, R168). -/
inductive LoopForm where
  /-- PLANE0, min(LEN0, 2756) bytes -/
  | plane0
  /-- PLANE1, min(LEN1, 2756) bytes -/
  | plane1
  /-- ARG, 2756 times -/
  | fill
  deriving DecidableEq, Repr

/-- The kinds of phase (41_protocol R151, 42_encoder R206). -/
inductive Row where
  | acq (h : Handle)
  | relSpi
  | pin (r : OutPin) (v : Level)
  | delay (t : Nat)
  | cmd (c : CmdForm)
  | data (d : DataForm)
  | loopData (l : LoopForm)
  | waitBusy
  | setState (st : Session)
  | fill
  | scan
  | setLen
  | finish
  deriving DecidableEq, Repr

/-- The six rows of the reset pulse (41_protocol R164). -/
def resetPulse : List Row :=
  [.pin .rst true, .delay Config.tRstHigh1, .pin .rst false, .delay Config.tRstLow, .pin .rst true,
   .delay Config.tRstHigh2]

/-- RESET, 41_protocol R164. -/
def tableReset : List Row := resetPulse ++ [.finish]

/-- Rows 0 and 1 of INIT: the two acquisitions (41_protocol R165). -/
def initHandles : List Row := [.acq .gpio, .acq .spi]

/-- Rows 8 to 21 of INIT: the register configuration (41_protocol R165). -/
def initConfig : List Row :=
  [.cmd (.const Config.cmdBoosterSoftStart), .data (.booster 0), .data (.booster 1), .data (.booster 2),
   .cmd (.const Config.cmdPowerOn), .waitBusy,
   .cmd (.const Config.cmdPanelSetting), .data (.const Config.panelSettingData),
   .cmd (.const Config.cmdVcomAndInterval), .data (.const Config.vcomData),
   .cmd (.const Config.cmdResolutionSetting), .data (.const Config.resHeightLow), .data (.const Config.resWidthHigh),
   .data (.const Config.resWidthLow)]

/-- INIT, 41_protocol R165: rows 0 to 23. -/
def tableInit : List Row := initHandles ++ resetPulse ++ initConfig ++ [.setState .initialized, .finish]

/-- The rows DISPLAY and CLEAR share but for the sources of the two planes (41_protocol R167, R168). -/
def tableFrame (black red : LoopForm) : List Row :=
  [.cmd (.const Config.cmdDisplayBlack), .loopData black, .cmd (.const Config.cmdDisplayRed), .loopData red,
   .cmd (.const Config.cmdRefresh), .delay Config.tRefreshSettle, .waitBusy, .finish]

/-- DISPLAY, 41_protocol R167. -/
def tableDisplay : List Row := tableFrame .plane0 .plane1

/-- CLEAR, 41_protocol R168. -/
def tableClear : List Row := tableFrame .fill .fill

/-- READBUSY, 41_protocol R166. -/
def tableReadbusy : List Row := [.waitBusy, .finish]

/-- SLEEP, 41_protocol R169. -/
def tableSleep : List Row :=
  [.cmd (.const Config.cmdPowerOff), .waitBusy, .cmd (.const Config.cmdDeepSleep), .data (.const Config.deepSleepCheck),
   .delay Config.tSleepSettle, .relSpi, .pin .rst false, .pin .dc false, .setState .sleeping, .finish]

/-- SENDCMD, 40_transport R132. -/
def tableSendcmd : List Row := [.cmd .arg, .finish]

/-- SENDDATA, 40_transport R134. -/
def tableSenddata : List Row := [.data .arg, .finish]

/-- SENDBUF, 40_transport R135. -/
def tableSendbuf : List Row := [.data .dbuf, .finish]

/-- ENCODE, 42_encoder R206. -/
def tableEncode : List Row := [.fill, .scan, .setLen, .finish]

/-- The phase table of an operation; the idle sequencer has none. -/
def phaseTable : Op → List Row
  | .idle => []
  | .reset => tableReset
  | .init => tableInit
  | .display => tableDisplay
  | .clear => tableClear
  | .readbusy => tableReadbusy
  | .sleep => tableSleep
  | .sendcmd => tableSendcmd
  | .senddata => tableSenddata
  | .sendbuf => tableSendbuf
  | .encode => tableEncode

/-- `table[OP][PH]` (41_protocol R152). -/
def State.row? (s : State) : Option Row := (phaseTable s.op)[s.seq.ph.toNat]?

end Sys2Proof.Machine
end

