-- ==== Sys2Proof/Machine/Operands.lean ====
section
/-! DEFINITION. The operand forms: what byte, bytes or count a row's operand stands for in a state (30_encoding R100,
R104). No byte is extended, scaled or shifted on its way to the wire. -/

namespace Sys2Proof.Machine

/-- The command byte of a CMD row. -/
def CmdForm.byte (s : State) : CmdForm → Byte
  | .const c => c
  | .arg => s.arg

/-- DBUF[0 .. DLEN - 1], ascending (40_transport R135). -/
def State.dbufBytes (s : State) : List Byte := (List.range s.dlen.toNat).map (s.bufByte .dbuf)

/-- The bytes of a DATA row, one transfer (41_protocol R158). -/
def DataForm.bytes (s : State) : DataForm → List Byte
  | .const b => [b]
  | .booster k => [Config.booster k]
  | .arg => [s.arg]
  | .dbuf => s.dbufBytes

/-- `min(n, 2756)` for a length register (30_encoding R104, 41_protocol R170). -/
def planeBound (n : Word16) : Nat := min n.toNat Config.planeBytes

/-- The count of a LOOPDATA row (41_protocol R167, R168). -/
def LoopForm.count (s : State) : LoopForm → Nat
  | .plane0 => planeBound s.len0
  | .plane1 => planeBound s.len1
  | .fill => Config.planeBytes

/-- `src(k)` of a LOOPDATA row (41_protocol R159). -/
def LoopForm.byte (s : State) (k : Nat) : LoopForm → Byte
  | .plane0 => s.bufByte .plane0 k
  | .plane1 => s.bufByte .plane1 k
  | .fill => s.arg

/-- ENCODE's destination: bit 0 of ARG (42_encoder R206). -/
def State.dest (s : State) : Buf := if s.arg.getLsbD 0 then .plane1 else .plane0

/-- The command byte of the CMD row the sequencer stands at, if it stands at one. -/
def State.commandByte? (s : State) : Option Byte :=
  match s.row? with
  | some (.cmd c) => some (c.byte s)
  | _ => none

end Sys2Proof.Machine
end

