-- ==== Sys2Proof/Machine/Transport.lean ====
section
/-! DEFINITION. The transport (40_transport): the four steps of a command frame and of a data frame, acceptance of a
request (41_protocol R153, which the host operations share), and SENDCMD, SENDDATA, SENDBUF. -/

namespace Sys2Proof.Machine

/-- Step SUB = 2 of a frame (R131, R133): one transfer of `bs`. A collaborator that has not finished holds the sequencer
here without an event (20_memory R71). -/
def State.transferStep (bs : List Byte) (s : State) : State :=
  match s.xferAt 0 with
  | .pending => s.popXfer
  | .answer r =>
    let t := s.popXfer.emit (.xfer bs r)
    t.withSeq { t.seq with sub := 3#2, xfail := r == .fail }

/-- SUB = 3 of a frame (R131, R136): CS goes back to 1, and `fin` is what ends a good frame. A failed frame stays at SUB 3
with CS back at 1, and its next step raises TransferFailure: one event a step (00_scope R14, 92_eei_decisions D5; log 28). -/
def State.closeFrame (fin : State → State) (s : State) : State :=
  if s.seq.xfail then
    if s.csL then s.raise s.op.code .transferFailure else s.pin .cs true
  else fin (s.pin .cs true)

/-- One sub-step of a frame with the given level of DC (40_transport R131, R133). -/
def State.frameStep (dc : Level) (bs : List Byte) (fin : State → State) (s : State) : State :=
  if s.seq.sub = 0#2 then (s.pin .dc dc).withSub 1#2
  else if s.seq.sub = 1#2 then (s.pin .cs false).withSub 2#2
  else if s.seq.sub = 2#2 then s.transferStep bs
  else s.closeFrame fin

/-- One sub-step of `sendCommand(c)` (R131, 41_protocol R157). -/
def State.commandStep (c : Byte) (s : State) : State := s.frameStep false [c] State.nextPhase

/-- One sub-step of `sendData(bs)` (R133, 41_protocol R158). -/
def State.dataStep (bs : List Byte) (s : State) : State := s.frameStep true bs State.nextPhase

/-- `valid(op, STATE)` (41_protocol R171). -/
def valid (op : Op) (st : Session) : Bool :=
  match op, st with
  | .encode, _ => true
  | .init, .initialized => false
  | .init, _ => true
  | .idle, _ => false
  | _, .initialized => true
  | _, _ => false

/-- SENDBUF's length is outside 1 to DBUF_DEPTH (60_exceptions R224). -/
def State.badLength (op : Op) (s : State) : Bool :=
  op == .sendbuf && (s.dlen == 0#16 || decide (Config.dbufDepth < s.dlen.toNat))

/-- Acceptance of a request for `op` (41_protocol R153): ARG is latched, the checks run in the order of 60_exceptions
R228, and the sequencer starts at row 0. A request on a running block is not accepted and changes nothing (10_state R57,
92_eei_decisions D27). -/
def State.accept (op : Op) (arg : Byte) (s : State) : State :=
  if s.op = .idle then
    let t := s.withArg arg
    if !valid op t.session then t.raise op.code .invalidState
    else if t.badLength op then t.raise op.code .badRequest
    else t.start op
  else s

/-- SENDCMD, 40_transport R132: acceptance; table `tableSendcmd` then runs. -/
def execSendcmd (code : Byte) (s : State) : Host.Outcome State Fault Refusal := .next (s.accept .sendcmd code)

/-- SENDDATA, 40_transport R134: acceptance; table `tableSenddata` then runs. -/
def execSenddata (data : Byte) (s : State) : Host.Outcome State Fault Refusal := .next (s.accept .senddata data)

/-- SENDBUF, 40_transport R135: acceptance with the length check; table `tableSendbuf` then runs. -/
def execSendbuf (arg : Byte) (s : State) : Host.Outcome State Fault Refusal := .next (s.accept .sendbuf arg)

end Sys2Proof.Machine
end

