-- ==== Sys2Proof/Machine/Encoder.lean ====
section
/-! DEFINITION. The framebuffer encoder (42_encoder): the packer as the pure function of R194, and the three silent phases
FILL, SCAN, SETLEN of ENCODE (R206), one byte or one pixel a step. -/

namespace Sys2Proof.Machine

/-- `stride = min(212, RW)` (R198). -/
def packStride (rw : Word16) : Nat := min Config.width rw.toNat

/-- The linear index of native pixel (y, x): `y * stride + x` (R198). -/
def packIndex (stride y x : Nat) : Nat := y * stride + x

/-- The mask of column x: `0x80 >> (x mod 8)` (20_memory R62, 42_encoder R198). -/
def packMask (x : Nat) : Byte := 0x80#8 >>> (x % 8)

/-- A pixel is black when its red channel is below 128 (R197). -/
def isBlack (r : Byte) : Bool := decide (r.toNat < Config.threshold)

/-- The pixel of column x and row y is in the raster's bounds and black (R196, R197). -/
def Raster.blackAt (r : Raster) (rw rh : Word16) (y x : Nat) : Bool :=
  decide (x < rw.toNat) && decide (y < rh.toNat) && isBlack (r.pixel x y)

/-- The native coordinates in the order of R194: y outer, x inner, ascending. -/
def scanOrder : List (Nat × Nat) :=
  (List.range Config.width).flatMap fun y => (List.range Config.height).map fun x => (y, x)

/-- The body of R194 for native pixel (y, x), on a plane held as a list of bytes. -/
def packPixel (rw rh : Word16) (r : Raster) (plane : List Byte) (yx : Nat × Nat) : List Byte :=
  if r.blackAt rw rh yx.1 yx.2 then
    plane.modify (packIndex (packStride rw) yx.1 yx.2 / 8) (fun b => b &&& ~~~ packMask yx.2)
  else plane

/-- `EncodePlane(RW, RH, Pix)` (R194): 2756 bytes. A byte index of 2756 or more changes nothing (R200). -/
def encodePlane (rw rh : Word16) (r : Raster) : List Byte :=
  scanOrder.foldl (packPixel rw rh r) (List.replicate Config.planeBytes 0xFF#8)

/-- FILL (R206): byte IDX of the destination becomes 0xFF; STRIDE is latched; after byte 2755 the scan starts at (0, 0). -/
def State.fillStep (s : State) : State :=
  if s.seq.idx.toNat < Config.planeBytes then
    let t := s.setBuf s.dest s.seq.idx.toNat 0xFF#8
    t.withSeq { t.seq with idx := t.seq.idx + 1#16, stride := BitVec.ofNat 8 (packStride t.rw) }
  else
    let t := s.nextPhase
    t.withSeq { t.seq with y := 0#8, x := 0#7 }

/-- The body of R194 at the counters (Y, X): a black pixel in bounds clears its bit of the destination; a byte index of
2756 or more is discarded (R200). -/
def State.scanPixel (s : State) : State :=
  if s.raster.blackAt s.rw s.rh s.seq.y.toNat s.seq.x.toNat then
    let k := packIndex s.seq.stride.toNat s.seq.y.toNat s.seq.x.toNat / 8
    if k < Config.planeBytes then s.setBuf s.dest k (s.bufByte s.dest k &&& ~~~ packMask s.seq.x.toNat) else s
  else s

/-- The counters after (Y, X): x inner, y outer, ascending; after (211, 103) the phase ends (R194, R206). -/
def State.scanNext (s : State) : State :=
  if s.seq.x.toNat + 1 < Config.height then s.withSeq { s.seq with x := s.seq.x + 1#7 }
  else if s.seq.y.toNat + 1 < Config.width then s.withSeq { s.seq with x := 0#7, y := s.seq.y + 1#8 }
  else s.nextPhase

/-- SCAN (R206): one native pixel. -/
def State.scanStep (s : State) : State := s.scanPixel.scanNext

/-- SETLEN (R206): `LEN[p] <- 2756`. -/
def State.setLenStep (s : State) : State := (s.setLen s.dest (BitVec.ofNat 16 Config.planeBytes)).nextPhase

/-- ENCODE, 42_encoder R206: acceptance in every session state; table `tableEncode` then runs. -/
def execEncode (arg : Byte) (s : State) : Host.Outcome State Fault Refusal := .next (s.accept .encode arg)

end Sys2Proof.Machine
end

