-- ==== Sys2Proof/Machine/Protocol.lean ====
section
/-! DEFINITION. The protocol sequencer's own phase kinds (41_protocol R155 to R163) and its six host operations. -/

namespace Sys2Proof.Machine

/-- ACQ h (R161): the handle is held, and the event emitted even if it was held already. -/
def State.acqStep (h : Handle) (s : State) : State :=
  match h with
  | .gpio => ((s.withGpio true).emit (.acq .gpio)).nextPhase
  | .spi => ((s.withSpi true).emit (.acq .spi)).nextPhase

/-- REL SPI (R162). -/
def State.relStep (s : State) : State := ((s.withSpi false).emit .relSpi).nextPhase

/-- PIN r v (R155). -/
def State.pinStep (r : OutPin) (v : Level) (s : State) : State := (s.pin r v).nextPhase

/-- DELAY t (R156): one event; the ticks it holds the sequencer are below the level of the model (log 10). -/
def State.delayStep (t : Nat) (s : State) : State := (s.emit (.delay t)).nextPhase

/-- What ends one frame of a LOOPDATA row (R152, R159): IDX + 1, SUB cleared. -/
def State.loopNext (s : State) : State := s.withSeq { s.seq with idx := s.seq.idx + 1#16, sub := 0#2 }

/-- LOOPDATA src n (R159): the silent step that ends it, or one sub-step of the data frame of byte IDX. -/
def State.loopStep (l : LoopForm) (s : State) : State :=
  if s.seq.sub = 0#2 ∧ l.count s ≤ s.seq.idx.toNat then s.nextPhase
  else s.frameStep true [l.byte s s.seq.idx.toNat] State.loopNext

/-- WAITBUSY (R160): sample; on 1 the phase ends, on 0 a delay follows and then the next sample. Unbounded (60_exceptions
R227). -/
def State.waitStep (s : State) : State :=
  if s.seq.sub = 0#2 then
    let v := s.busyAt 0
    let t := s.popBusy.sampled v
    if v then t.nextPhase else t.withSub 1#2
  else (s.emit (.delay Config.tBusyPoll)).withSub 0#2

/-- SETSTATE st (R163): silent. -/
def State.setStateStep (st : Session) (s : State) : State := (s.withSession st).nextPhase

/-- RESET, 41_protocol R164: acceptance; table `tableReset` then runs. -/
def execReset (arg : Byte) (s : State) : Host.Outcome State Fault Refusal := .next (s.accept .reset arg)

/-- INIT, 41_protocol R165: acceptance; table `tableInit` then runs. -/
def execInit (arg : Byte) (s : State) : Host.Outcome State Fault Refusal := .next (s.accept .init arg)

/-- DISPLAY, 41_protocol R167: acceptance; table `tableDisplay` then runs. -/
def execDisplay (arg : Byte) (s : State) : Host.Outcome State Fault Refusal := .next (s.accept .display arg)

/-- CLEAR, 41_protocol R168: acceptance, the fill byte in ARG; table `tableClear` then runs. -/
def execClear (fill : Byte) (s : State) : Host.Outcome State Fault Refusal := .next (s.accept .clear fill)

/-- READBUSY, 41_protocol R166: acceptance; table `tableReadbusy` then runs. -/
def execReadbusy (arg : Byte) (s : State) : Host.Outcome State Fault Refusal := .next (s.accept .readbusy arg)

/-- SLEEP, 41_protocol R169: acceptance; table `tableSleep` then runs. -/
def execSleep (arg : Byte) (s : State) : Host.Outcome State Fault Refusal := .next (s.accept .sleep arg)

end Sys2Proof.Machine
end

