-- ==== Sys2Proof/Machine/Reserved.lean ====
section
/-! DEFINITION. The six reserved request codes (30_encoding R115): BadRequest in every session state. -/

namespace Sys2Proof.Machine

/-- A request that names no operation: ARG is latched and BadRequest raised (30_encoding R115, 41_protocol R153). A running
block accepts no request (10_state R57). -/
def State.rejectReserved (opField : BitVec 4) (arg : Byte) (s : State) : State :=
  if s.op = .idle then (s.withArg arg).raise opField .badRequest else s

/-- Reserved op 0x0. -/
def execReserved0 (arg : Byte) (s : State) : Host.Outcome State Fault Refusal := .next (s.rejectReserved 0x0#4 arg)

/-- Reserved op 0xB. -/
def execReservedB (arg : Byte) (s : State) : Host.Outcome State Fault Refusal := .next (s.rejectReserved 0xB#4 arg)

/-- Reserved op 0xC. -/
def execReservedC (arg : Byte) (s : State) : Host.Outcome State Fault Refusal := .next (s.rejectReserved 0xC#4 arg)

/-- Reserved op 0xD. -/
def execReservedD (arg : Byte) (s : State) : Host.Outcome State Fault Refusal := .next (s.rejectReserved 0xD#4 arg)

/-- Reserved op 0xE. -/
def execReservedE (arg : Byte) (s : State) : Host.Outcome State Fault Refusal := .next (s.rejectReserved 0xE#4 arg)

/-- Reserved op 0xF. -/
def execReservedF (arg : Byte) (s : State) : Host.Outcome State Fault Refusal := .next (s.rejectReserved 0xF#4 arg)

end Sys2Proof.Machine
end

