-- ==== Sys2Proof/Machine/Wire.lean ====
section
/-! DEFINITION. The ten panel commands of the wire (30_encoding R105 to R114). The meaning of each is the command frame of
its code, one sub-step at a time (40_transport R131), at a place where the sequencer stands at a CMD row with that byte:
in the fixed tables, or in SENDCMD. The payload of a command is the DATA and LOOPDATA rows that follow it in the tables
(log 13), and what the panel does with it is outside (00_scope R4). -/

namespace Sys2Proof.Machine

/-- The command frame of `c`, where the sequencer stands at it; elsewhere no frame of `c` is in progress and nothing
happens (41_protocol R150, log 12). -/
def State.sendAt (c : Byte) (s : State) : State := if s.commandByte? = some c then s.commandStep c else s

/-- BOOSTER_SOFT_START, 30_encoding R105. -/
def execBoosterSoftStart (s : State) : Host.Outcome State Fault Refusal := .next (s.sendAt Config.cmdBoosterSoftStart)

/-- POWER_ON, 30_encoding R106. -/
def execPowerOn (s : State) : Host.Outcome State Fault Refusal := .next (s.sendAt Config.cmdPowerOn)

/-- PANEL_SETTING, 30_encoding R107. -/
def execPanelSetting (s : State) : Host.Outcome State Fault Refusal := .next (s.sendAt Config.cmdPanelSetting)

/-- VCOM_AND_INTERVAL, 30_encoding R108. -/
def execVcomAndInterval (s : State) : Host.Outcome State Fault Refusal := .next (s.sendAt Config.cmdVcomAndInterval)

/-- RESOLUTION_SETTING, 30_encoding R109. -/
def execResolutionSetting (s : State) : Host.Outcome State Fault Refusal := .next (s.sendAt Config.cmdResolutionSetting)

/-- DISPLAY_BLACK, 30_encoding R110. -/
def execDisplayBlack (s : State) : Host.Outcome State Fault Refusal := .next (s.sendAt Config.cmdDisplayBlack)

/-- DISPLAY_RED, 30_encoding R111. -/
def execDisplayRed (s : State) : Host.Outcome State Fault Refusal := .next (s.sendAt Config.cmdDisplayRed)

/-- REFRESH, 30_encoding R112. -/
def execRefresh (s : State) : Host.Outcome State Fault Refusal := .next (s.sendAt Config.cmdRefresh)

/-- POWER_OFF, 30_encoding R113. -/
def execPowerOff (s : State) : Host.Outcome State Fault Refusal := .next (s.sendAt Config.cmdPowerOff)

/-- DEEP_SLEEP, 30_encoding R114. -/
def execDeepSleep (s : State) : Host.Outcome State Fault Refusal := .next (s.sendAt Config.cmdDeepSleep)

end Sys2Proof.Machine
end

