-- ==== Sys2Proof/Machine/Dispatch.lean ====
section
/-! DEFINITION. One arm for each constructor of Instr. -/

namespace Sys2Proof.Machine

def exec (i : Instr) (s : State) : Host.Outcome State Fault Refusal :=
  match i with
  | .boosterSoftStart => Sys2Proof.Machine.execBoosterSoftStart s
  | .powerOn => Sys2Proof.Machine.execPowerOn s
  | .panelSetting => Sys2Proof.Machine.execPanelSetting s
  | .vcomAndInterval => Sys2Proof.Machine.execVcomAndInterval s
  | .resolutionSetting => Sys2Proof.Machine.execResolutionSetting s
  | .displayBlack => Sys2Proof.Machine.execDisplayBlack s
  | .displayRed => Sys2Proof.Machine.execDisplayRed s
  | .refresh => Sys2Proof.Machine.execRefresh s
  | .powerOff => Sys2Proof.Machine.execPowerOff s
  | .deepSleep => Sys2Proof.Machine.execDeepSleep s
  | .reset arg => Sys2Proof.Machine.execReset arg s
  | .init arg => Sys2Proof.Machine.execInit arg s
  | .display arg => Sys2Proof.Machine.execDisplay arg s
  | .clear fill => Sys2Proof.Machine.execClear fill s
  | .readbusy arg => Sys2Proof.Machine.execReadbusy arg s
  | .sleep arg => Sys2Proof.Machine.execSleep arg s
  | .sendcmd code => Sys2Proof.Machine.execSendcmd code s
  | .senddata data => Sys2Proof.Machine.execSenddata data s
  | .sendbuf arg => Sys2Proof.Machine.execSendbuf arg s
  | .encode arg => Sys2Proof.Machine.execEncode arg s
  | .reserved0 arg => Sys2Proof.Machine.execReserved0 arg s
  | .reservedB arg => Sys2Proof.Machine.execReservedB arg s
  | .reservedC arg => Sys2Proof.Machine.execReservedC arg s
  | .reservedD arg => Sys2Proof.Machine.execReservedD arg s
  | .reservedE arg => Sys2Proof.Machine.execReservedE arg s
  | .reservedF arg => Sys2Proof.Machine.execReservedF arg s

end Sys2Proof.Machine
end

