-- ==== Sys2Proof/Machine/Ports.lean ====
section
/-! DEFINITION. The host's ports and the pins (60_exceptions R230, R233; 10_state R43, R44, R57). -/

namespace Sys2Proof.Machine

/-- `op_ready`, and the ready lines of the write ports: 1 exactly while OP is IDLE (60_exceptions R233). -/
def State.opReady (s : State) : Bool := s.op == .idle

/-- `done` (60_exceptions R233). -/
def State.doneOut (s : State) : Bool := s.done

/-- `err[1:0]` (60_exceptions R233). -/
def State.errOut (s : State) : BitVec 2 := s.err

/-- `spi_open` (60_exceptions R231). -/
def State.spiOpenOut (s : State) : Bool := s.spiOpen

/-- What SPI_BUS, SPI_CHANNEL and SPI_CLOCK_HZ the collaborator is given while the handle is held (60_exceptions R231). -/
def State.spiParams (s : State) : Option (Nat × Nat × Nat) :=
  if s.spiOpen then some (Config.spiBus, Config.spiChannel, Config.spiClockHz) else none

/-- The level an output pin carries, if it is driven (10_state R43). -/
def State.pinOut (s : State) (r : OutPin) : Option Level :=
  if s.oe then
    match r with
    | .rst => some s.rstL
    | .dc => some s.dcL
    | .cs => some s.csL
  else none

/-- A read at the register port (10_state R44). STATUS, ERR and PINS can be read at any time, the operand registers only
while the sequencer is idle (R57, log 21), and the numbers 8 to 15 read as 0. -/
def State.readReg (s : State) (n : BitVec 4) : Option Word16 :=
  match n.toNat with
  | 0 => some (BitVec.ofNat 16 s.status)
  | 1 => some (s.err.setWidth 16)
  | 2 => if s.opReady then some s.len0 else none
  | 3 => if s.opReady then some s.len1 else none
  | 4 => if s.opReady then some s.dlen else none
  | 5 => if s.opReady then some s.rw else none
  | 6 => if s.opReady then some s.rh else none
  | 7 => some (BitVec.ofNat 16 s.pins)
  | _ => some 0#16

/-- A write at the register port: numbers 2 to 6 take the value, every other number ignores it (10_state R44). -/
def State.writeReg (n : BitVec 4) (v : Word16) (s : State) : State :=
  match n.toNat with
  | 2 => { s with len0 := v }
  | 3 => { s with len1 := v }
  | 4 => { s with dlen := v }
  | 5 => { s with rw := v }
  | 6 => { s with rh := v }
  | _ => s

/-- What a host action other than a request does (10_state R57). A byte written at an index the buffer does not have
stops the model (log 17). The request is for `fetch` to decode. -/
def State.hostAct (a : HostAct) (s : State) : Host.Outcome State Fault Refusal :=
  match a with
  | .request _ => .next s
  | .writeReg n v => .next (s.writeReg n v)
  | .writeBuf b i v => if i.toNat < b.depth then .next (s.setBuf b i.toNat v) else .fault .hostWriteOutside
  | .present r => .next (s.withRaster r)

end Sys2Proof.Machine
end

