-- ==== Sys2Proof/Machine/Sequencer.lean ====
section
/-! DEFINITION. What comes next (41_protocol R150): hardware reset, a host action, an instruction to run, or a step of a
phase that is no instruction. `Step.lean` runs what `fetch` answers. -/

namespace Sys2Proof.Machine

/-- The step of a row (41_protocol R152, 42_encoder R206). A CMD row whose byte is one of the ten panel commands is run
as that instruction; here it stands for any byte (30_encoding R116). -/
def State.rowStep (r : Row) (s : State) : State :=
  match r with
  | .acq h => s.acqStep h
  | .relSpi => s.relStep
  | .pin p v => s.pinStep p v
  | .delay t => s.delayStep t
  | .cmd c => s.commandStep (c.byte s)
  | .data d => s.dataStep (d.bytes s)
  | .loopData l => s.loopStep l
  | .waitBusy => s.waitStep
  | .setState st => s.setStateStep st
  | .fill => s.fillStep
  | .scan => s.scanStep
  | .setLen => s.setLenStep
  | .finish => s.finish

/-- What a step has to do: run an instruction in a state, or answer at once. -/
inductive Fetched where
  | run (i : Instr) (s : State)
  | done (o : Host.Outcome State Fault Refusal)

/-- What the running sequencer does: its one enabled step (41_protocol R150). -/
def State.fetchRow (s : State) : Fetched :=
  match s.row? with
  | none => .done (.fault .noSuchPhase)
  | some r =>
    match s.commandByte? with
    | some c =>
      match decodeWire c with
      | .ok i => .run i s
      | .error _ => .done (.next (s.rowStep r))
    | none => .done (.next (s.rowStep r))

/-- What the idle sequencer does: take the host's next action, or nothing (41_protocol R150, R153). -/
def State.fetchHost (s : State) : Fetched :=
  match s.host with
  | [] => .done (.next s)
  | .request w :: rest => .run (decodeRequest w) (s.withHost rest)
  | a :: rest => .done ((s.withHost rest).hostAct a)

/-- rst_n is 0 at this step (70_reset R260, log 8). -/
def State.inReset (s : State) : Bool := s.rstIn.head? == some false

/-- What the next step has to do. Hardware reset comes before everything (70_reset R261). -/
def State.fetch (s : State) : Fetched :=
  if s.inReset then .done (.next s.hardReset)
  else if s.op = .idle then s.tick.fetchHost
  else s.tick.fetchRow

/-- Place request word `w` where an idle sequencer takes it at the next step (log 15). -/
def State.placeRequest (w : BitVec 12) (s : State) : State :=
  { s with op := .idle, host := .request w :: s.host, rstIn := true :: s.rstIn }

/-- Place wire code `c` where the sequencer sends it from the next step on: SENDCMD's CMD row with ARG = c (log 15). -/
def State.placeWire (c : Byte) (s : State) : State :=
  { s with op := .sendcmd, arg := c, seq := { s.seq with ph := 0#6, sub := 0#2, idx := 0#16 }, rstIn := true :: s.rstIn }

end Sys2Proof.Machine
end

