-- ==== Sys2Proof/Machine/Step.lean ====
section
/-! DEFINITION. One step of the machine: one step of the sequencer, one host action, or hardware reset. -/

namespace Sys2Proof.Machine

/-- One step (41_protocol R150): what `fetch` answers, run. -/
def step (s : State) : Host.Outcome State Fault Refusal :=
  match s.fetch with
  | .run i t => exec i t
  | .done o => o

/-- `s` with the instruction of the bits `w` placed so that the next step runs it (log 15). -/
def State.withFetchWord (s : State) (nbits w : Nat) : State :=
  if nbits ≤ 8 then s.placeWire (BitVec.ofNat 8 w) else s.placeRequest (BitVec.ofNat 12 w)

end Sys2Proof.Machine
end

