-- ==== Sys2Proof/Machine/Normalise.lean ====
section
/-! DEFINITION. The normalisation contract (42_encoder R190): what the host does to an image before it presents it at the
RASTER port. It is outside the block (00_scope R4 (4)); resize and rotate are uninterpreted (log 23). No rule of the
block uses this file. -/

namespace Sys2Proof.Machine

/-- An image with red, green and blue channels, listed by row. -/
structure Picture where
  width : Nat
  height : Nat
  pixels : List (Byte × Byte × Byte)
  deriving DecidableEq, Repr, Inhabited

/-- `resize(w, h)`: a collaborator's function, uninterpreted (91_not_in_source N11). Log 23. -/
opaque Picture.resize : (w h : Nat) → Picture → Picture

/-- `rotate90`: a collaborator's function, uninterpreted (91_not_in_source N11). Log 23. -/
opaque Picture.rotate90 : Picture → Picture

/-- The least of three bytes. -/
def leastChannel (c : Byte × Byte × Byte) : Byte := BitVec.ofNat 8 (min c.1.toNat (min c.2.1.toNat c.2.2.toNat))

/-- `grey_min`: every channel becomes the least of the three (42_encoder R190). -/
def Picture.greyMin (p : Picture) : Picture :=
  { p with pixels := p.pixels.map fun c => (leastChannel c, leastChannel c, leastChannel c) }

/-- The sequence of 42_encoder R190. -/
def Picture.normalise (p : Picture) : Picture :=
  let r1 := Picture.resize Config.width Config.height p.greyMin
  if r1.height < r1.width then Picture.resize Config.height Config.width r1.rotate90 else r1

/-- The red channel of an image as a raster (10_state R53); a pixel the image does not list reads as white. -/
def Picture.raster (p : Picture) : Raster :=
  .cells 0xFF#8 (p.pixels.zipIdx.map fun ci => (65536 * (ci.2 / p.width) + ci.2 % p.width, ci.1.1))

end Sys2Proof.Machine
end

