-- ==== Sys2Proof/Safety.lean ====
section
/-! DEFINITION. The terms claims about the block are stated in: runs, frames and traces (00_scope R15), the panel byte
stream (R7), the environment's answers ahead, and the invariants. -/

namespace Sys2Proof.Machine

/-- `n` steps from `s` end in `t`. -/
abbrev Reaches (n : Nat) (s t : State) : Prop := Host.Core.run Sys2Proof.core n s = .next t

/-- A command frame: `C(c)` for `ok`, `C!(c)` for `fail` (00_scope R15). -/
def cmdFrame (c : Byte) (r : XferResult) : List Event :=
  [.pin .dc false, .pin .cs false, .xfer [c] r, .pin .cs true]

/-- A data frame: `DB(bs)` for `ok`, `DB!(bs)` for `fail` (00_scope R15). -/
def dataFrame (bs : List Byte) (r : XferResult) : List Event :=
  [.pin .dc true, .pin .cs false, .xfer bs r, .pin .cs true]

/-- The good data frames of a list of bytes, one byte a frame. -/
def byteFrames (bs : List Byte) : List Event := bs.flatMap fun b => dataFrame [b] .ok

/-- `W(0, ..., 0, 1)` with `m` zeros (00_scope R15). -/
def busyWait : Nat → List Event
  | 0 => [.busy true]
  | m + 1 => .busy false :: .delay 100 :: busyWait m

/-- The six events of the reset pulse (41_protocol R164). -/
def pulseEvents : List Event :=
  [.pin .rst true, .delay 200, .pin .rst false, .delay 2, .pin .rst true, .delay 200]

/-- The events of INIT before its `Ret`, with `m` zeros in its busy-wait (41_protocol R165). -/
def initEvents (m : Nat) : List Event :=
  ([.acq .gpio, .acq .spi] : List Event) ++ pulseEvents ++ cmdFrame 0x06#8 .ok ++
  byteFrames [Config.booster 0, Config.booster 1, Config.booster 2] ++ cmdFrame 0x04#8 .ok ++ busyWait m ++
  cmdFrame 0x00#8 .ok ++ byteFrames [0x8F#8] ++ cmdFrame 0x50#8 .ok ++ byteFrames [0xF0#8] ++
  cmdFrame 0x61#8 .ok ++ byteFrames [0x68#8, 0x00#8, 0xD4#8]

/-- The events of DISPLAY or CLEAR before the `Ret`: the bytes sent for each plane, `m` zeros in the busy-wait
(41_protocol R167, R168). -/
def frameEvents (black red : List Byte) (m : Nat) : List Event :=
  cmdFrame 0x10#8 .ok ++ byteFrames black ++ cmdFrame 0x13#8 .ok ++ byteFrames red ++ cmdFrame 0x12#8 .ok ++
  ([.delay 100] : List Event) ++ busyWait m

/-- The events of SLEEP before its `Ret`, with `m` zeros in its busy-wait (41_protocol R169). -/
def sleepEvents (m : Nat) : List Event :=
  cmdFrame 0x02#8 .ok ++ busyWait m ++ cmdFrame 0x07#8 .ok ++ byteFrames [0xA5#8] ++
  ([.delay 2000, .relSpi, .pin .rst false, .pin .dc false] : List Event)

/-- The bytes DISPLAY sends for a plane: the first min(LEN[p], 2756) (41_protocol R170). -/
def State.sentBytes (s : State) (b : Buf) (n : Word16) : List Byte := (List.range (planeBound n)).map (s.bufByte b)

/-- The bytes of a whole plane buffer. -/
def State.planeContents (s : State) (b : Buf) : List Byte := (List.range Config.planeBytes).map (s.bufByte b)

/-- The panel byte stream of a trace (00_scope R7): for each byte of each successful transfer, the level of DC and the
byte, `dc` being the level of DC before the trace. -/
def panelBytes (dc : Level) : List Event → List (Level × Byte)
  | [] => []
  | .pin .dc v :: es => panelBytes v es
  | .xfer bs .ok :: es => bs.map (fun b => (dc, b)) ++ panelBytes dc es
  | _ :: es => panelBytes dc es

/-- The least time of a trace in ms: the sum of its delays (70_reset R280). -/
def leastMs : List Event → Nat
  | [] => 0
  | .delay t :: es => t + leastMs es
  | _ :: es => leastMs es

/-- The ticks the delay timer counts over a trace (60_exceptions R243). -/
def timerTicks (es : List Event) : Nat := leastMs es * Config.ticksPerMs

/-- rst_n stays 1 for every step to come. -/
def State.quiet (s : State) : Prop := ∀ v ∈ s.rstIn, v = true

/-- The next `n` transfers succeed, each at the first step it is asked for. -/
def State.xfersOk (n : Nat) (s : State) : Prop := ∀ k < n, s.xferAt k = .answer .ok

/-- After `off` answers the collaborator leaves `p` asks without an answer and then answers `r` (20_memory R71, log 1). -/
def State.answered (off p : Nat) (r : XferResult) (s : State) : Prop :=
  (∀ k < p, s.xferAt (off + k) = .pending) ∧ s.xferAt (off + p) = .answer r

/-- The asks that `n` transfers take when transfer `k` is left without an answer `p k` times. -/
def asksOf (p : Nat → Nat) : Nat → Nat
  | 0 => 0
  | n + 1 => asksOf p n + p n + 1

/-- The next `n` transfers succeed, transfer `k` after `p k` asks without an answer. -/
def State.xfersOkAfter (p : Nat → Nat) (n : Nat) (s : State) : Prop := ∀ k < n, s.answered (asksOf p k) (p k) .ok

/-- The frame the sequencer stands in has result `r`, after `p` more asks without an answer: past its transfer the result
is the one XFAIL holds (40_transport R131). -/
def State.frameGets (p : Nat) (r : XferResult) (s : State) : Prop :=
  if s.seq.sub = 3#2 then p = 0 ∧ s.seq.xfail = (r == .fail) else s.answered 0 p r

/-- What a good frame of the events `f` leaves in `t`, from wherever in the frame `s` stands: the events still to come, CS
at 1, DC at `dc` where it was still to be written, the rest of the session as it was (40_transport R131, R133). -/
structure FrameSent (dc : Level) (f : List Event) (s t : State) : Prop where
  trace : t.trace = s.trace ++ f.drop s.seq.sub.toNat
  cs : t.csL = true
  dc : t.dcL = if s.seq.sub = 0#2 then dc else s.dcL
  op : t.op = s.op
  sub : t.seq.sub = 0#2
  session : t.session = s.session
  gpio : t.gpioOpen = s.gpioOpen
  spi : t.spiOpen = s.spiOpen
  rst : t.rstL = s.rstL

/-- What a failed frame of the events `f` leaves in `t`, from wherever in the frame `s` stands: the events still to come
and the `Ret` of TransferFailure, CS at 1, the operation ended, the rest of the session as it was (40_transport R136,
60_exceptions R226). -/
structure FrameFailed (dc : Level) (f : List Event) (s t : State) : Prop where
  trace : t.trace = s.trace ++ f.drop s.seq.sub.toNat ++ [.ret s.op.code 1#2]
  cs : t.csL = true
  dc : t.dcL = if s.seq.sub = 0#2 then dc else s.dcL
  op : t.op = .idle
  err : t.err = 1#2
  done : t.done = true
  session : t.session = s.session
  gpio : t.gpioOpen = s.gpioOpen
  spi : t.spiOpen = s.spiOpen
  rst : t.rstL = s.rstL

/-- BUSY reads 0 at the next `m` samples and then 1. -/
def State.busyFor (m : Nat) (s : State) : Prop := (∀ k < m, s.busyAt k = false) ∧ s.busyAt m = true

/-- The sequencer is idle, rst_n stays 1, and the host's next action is request `w`. -/
def State.ready (w : BitVec 12) (s : State) : Prop := s.op = .idle ∧ s.quiet ∧ ∃ rest, s.host = .request w :: rest

/-- The ten host operations and their requests (30_encoding R94). -/
def hostOps : List (Op × (Byte → Instr)) :=
  [(.reset, .reset), (.init, .init), (.display, .display), (.clear, .clear), (.readbusy, .readbusy), (.sleep, .sleep),
   (.sendcmd, .sendcmd), (.senddata, .senddata), (.sendbuf, .sendbuf), (.encode, .encode)]

/-- The six reserved request codes (30_encoding R115). -/
def reservedOps : List (BitVec 4 × (Byte → Instr)) :=
  [(0x0#4, .reserved0), (0xB#4, .reservedB), (0xC#4, .reservedC), (0xD#4, .reservedD), (0xE#4, .reservedE),
   (0xF#4, .reservedF)]

/-- The ten panel commands (30_encoding R105 to R114). -/
def panelCommands : List (Byte × Instr) :=
  [(0x06#8, .boosterSoftStart), (0x04#8, .powerOn), (0x00#8, .panelSetting), (0x50#8, .vcomAndInterval),
   (0x61#8, .resolutionSetting), (0x10#8, .displayBlack), (0x13#8, .displayRed), (0x12#8, .refresh),
   (0x02#8, .powerOff), (0x07#8, .deepSleep)]

/-- The session states in which a request is admitted (41_protocol R171, read by rows): ENCODE in every state, INIT in
Uninitialized and Sleeping, every other operation in Initialized. -/
def admits (op : Op) (st : Session) : Prop :=
  op = .encode ∨ (op = .init ∧ st ≠ .initialized) ∨ (op ≠ .init ∧ op ≠ .idle ∧ st = .initialized)

/-- SENDBUF's length is within 1 to DBUF_DEPTH (40_transport R135). -/
def State.lengthOk (op : Op) (s : State) : Prop := op = .sendbuf → 1 ≤ s.dlen.toNat ∧ s.dlen.toNat ≤ Config.dbufDepth

/-- `s` rejected with ARG latched and error code `e`, the op field `o` in its `Ret` (41_protocol R153, 60_exceptions R226);
the internal counters become free values. -/
def State.rejected (o : BitVec 4) (e : BitVec 2) (arg : Byte) (s : State) : State :=
  { s with arg := arg, err := e, done := true, trace := s.trace ++ [.ret o e], op := .idle,
           seq := SeqRegs.free s.draws, draws := s.draws + 1 }

/-- `s` accepted: ARG latched, `SEQ <- (op, 0, 0, 0)` (41_protocol R153). -/
def State.accepted (op : Op) (arg : Byte) (s : State) : State :=
  { s with arg := arg, op := op, seq := { s.seq with ph := 0#6, sub := 0#2, idx := 0#16 } }

/-- Every listed index is below `n`. -/
def Memory.below (n : Nat) (m : Memory) : Prop := ∀ c ∈ m, c.1 < n

/-- The memories are in canonical form and within their depths (20_memory R69). -/
def State.MemOk (s : State) : Prop :=
  (s.plane0.wf = true ∧ s.plane1.wf = true ∧ s.dbuf.wf = true) ∧
  s.plane0.below Config.planeBytes ∧ s.plane1.below Config.planeBytes ∧ s.dbuf.below Config.dbufDepth

/-- The counters fit the row the sequencer stands at (10_state R22, R31, R32). -/
def Row.countersOk (r : Row) (s : State) : Prop :=
  match r with
  | .cmd _ | .data _ => s.seq.idx = 0#16
  | .loopData l => s.seq.idx.toNat ≤ l.count s ∧ (s.seq.sub ≠ 0#2 → s.seq.idx.toNat < l.count s)
  | .waitBusy => s.seq.idx = 0#16 ∧ (s.seq.sub = 0#2 ∨ s.seq.sub = 1#2)
  | .fill => s.seq.sub = 0#2 ∧ s.seq.idx.toNat ≤ Config.planeBytes ∧
      (s.seq.idx ≠ 0#16 → s.seq.stride.toNat = packStride s.rw)
  | .scan => s.seq.sub = 0#2 ∧ s.seq.idx = 0#16 ∧ s.seq.y.toNat < Config.width ∧ s.seq.x.toNat < Config.height ∧
      s.seq.stride.toNat = packStride s.rw
  | _ => s.seq.sub = 0#2 ∧ s.seq.idx = 0#16

/-- A running sequencer stands at a row of its table, with counters that fit (10_state R32). -/
def State.SeqOk (s : State) : Prop := s.op ≠ .idle → ∃ r, s.row? = some r ∧ r.countersOk s

/-- The row sends frames. -/
def Row.sendsFrames : Row → Bool
  | .cmd _ | .data _ | .loopData _ => true
  | _ => false

/-- The sequencer stands in a frame that has asserted CS: SUB is 2 or 3 of a row that sends frames. -/
def State.selected (s : State) : Prop :=
  s.op ≠ .idle ∧ (∃ r, s.row? = some r ∧ r.sendsFrames = true) ∧ (s.seq.sub = 2#2 ∨ s.seq.sub = 3#2)

/-- SLEEP has released the SPI handle: it is past row 5 of its table (41_protocol R169). -/
def State.sleepReleased (s : State) : Prop := s.op = .sleep ∧ 6 ≤ s.seq.ph.toNat

/-- The session, the handles and CS go together (10_state R42, 60_exceptions R242, 41_protocol R171). CS is low only inside
a frame, and inside one it is low but where a failed frame has deasserted it and not yet raised (40_transport R136). -/
structure State.SessOk (s : State) : Prop where
  gpio : s.session = .initialized → s.gpioOpen = true
  spi : s.session = .initialized → ¬ s.sleepReleased → s.spiOpen = true
  initGpio : s.op = .init → 1 ≤ s.seq.ph.toNat → s.gpioOpen = true
  initSpi : s.op = .init → 2 ≤ s.seq.ph.toNat → s.spiOpen = true
  initEnd : s.op = .init → (s.session = .initialized ↔ s.seq.ph.toNat = 23)
  sleepEnd : s.op = .sleep → s.seq.ph.toNat = 9 → s.session = .sleeping
  panelOps : s.op ≠ .idle → s.op ≠ .init → s.op ≠ .encode → ¬ (s.op = .sleep ∧ s.seq.ph.toNat = 9) →
    s.session = .initialized
  select : s.csL = false → s.selected
  deselect : s.selected → s.csL = true → s.seq.sub = 3#2 ∧ s.seq.xfail = true

end Sys2Proof.Machine
end

