-- ==== Sys2Proof/Certificates/Slice0/Obligations.lean ====
section
/-! DEFINITION. The statements for the provers. Each docstring names the rules of spec/ it formalises. -/

open Sys2Proof Sys2Proof.Machine

/-! ## The encodings -/

/-- Decoding the bytes of an instruction gives it back, with the bytes after it (30_encoding R91, R93, R94, R105 to R115;
the byte layout of a request is the model's, log 14). -/
def Obligations.DecodeEncodeRoundTrip : Prop :=
  ∀ (i : Instr) (rest : List Byte), decode i.space (encode i ++ rest) = .ok (i, rest)

/-- Every request word names one instruction, which keeps both its fields (30_encoding R93, R94, R115); that its encoding
as bytes is the arg byte and then the op field is the model's choice (log 14). -/
def Obligations.RequestWordKeepsItsFields : Prop :=
  ∀ w : BitVec 12, encode (decodeRequest w) = [reqArg w, (reqOp w).setWidth 8] ∧ (decodeRequest w).space = .host

/-- The command bytes that name an instruction are the ten codes of 30_encoding R105 to R114, each naming its own. -/
def Obligations.WireCommandsAreTheTen : Prop :=
  ∀ (c : Byte) (i : Instr), decodeWire c = .ok i ↔ (c, i) ∈ panelCommands

/-- A few words written out from the tables of 30_encoding R94 and R105 to R115 (95_test_vectors X3 to X6). -/
def Obligations.WrittenOutWordsDecode : Prop :=
  decodeTableWord 8 0b01100001 = some .resolutionSetting ∧ decodeTableWord 8 0b00010011 = some .displayRed ∧
  decodeTableWord 8 0b00000101 = none ∧
  decodeTableWord 16 0b0100_11111111 = some (.clear 0xFF#8) ∧
  decodeTableWord 16 0b0111_00010010 = some (.sendcmd 0x12#8) ∧
  decodeTableWord 16 0b1010_00000011 = some (.encode 0x03#8) ∧
  decodeTableWord 16 0b0011_11000111 = some (.display 0xC7#8) ∧
  decodeTableWord 16 0b1111_00000000 = some (.reservedF 0x00#8)

/-! ## A step -/

/-- A step of an idle block with a request runs the instruction of its word, the request taken and the DONE pulse ended; a
step of a running block that stands at one of the ten command codes runs that instruction (41_protocol R150, R153). -/
def Obligations.StepRunsTheDecodedInstruction : Prop :=
  (∀ (s : State) (w : BitVec 12) (rest : List HostAct), s.inReset = false → s.op = .idle → s.host = .request w :: rest →
    step s = exec (decodeRequest w) { s with done := false, rstIn := s.rstIn.tail, host := rest }) ∧
  (∀ (s : State) (c : Byte) (i : Instr), s.inReset = false → s.op ≠ .idle → s.commandByte? = some c →
    decodeWire c = .ok i → step s = exec i { s with done := false, rstIn := s.rstIn.tail })

/-- An idle block the host gives nothing does nothing but end the DONE pulse (70_reset R260, 10_state R35; log 7, 9). -/
def Obligations.IdleBlockWaits : Prop :=
  ∀ s : State, s.inReset = false → s.op = .idle → s.host = [] →
    step s = .next { s with done := false, rstIn := s.rstIn.tail }

/-- rst_n at 0 brings every field of the block to its value of 10_state R58, wherever the block was, with no event; the
buffers hold free bytes and the counters free values (70_reset R260, R261; log 3, 4, 8). -/
def Obligations.HardwareResetFromAnywhere : Prop :=
  ∀ s : State, s.inReset = true → ∃ t, step s = .next t ∧
    t.session = .uninitialized ∧ t.op = .idle ∧ t.arg = 0#8 ∧ t.len0 = 0#16 ∧ t.len1 = 0#16 ∧ t.dlen = 0#16 ∧
    t.rw = 0#16 ∧ t.rh = 0#16 ∧ t.err = 0#2 ∧ t.done = false ∧ t.lastBusy = false ∧ t.gpioOpen = false ∧
    t.spiOpen = false ∧ t.rstL = true ∧ t.dcL = false ∧ t.csL = true ∧ t.trace = [] ∧
    t.seq = SeqRegs.free s.draws ∧
    (∀ b i, t.bufByte b i = Config.unwrittenByte (s.epoch + 1) b.number i) ∧
    t.host = s.host ∧ t.raster = s.raster ∧ (∀ k, t.xferAt k = s.xferAt k) ∧ ∀ k, t.busyAt k = s.busyAt k

/-- What reset leaves (10_state R58): the values the table gives, and where it says unspecified, a free value. -/
def Obligations.ResetValues : Prop :=
  State.reset.session = .uninitialized ∧ State.reset.op = .idle ∧ State.reset.arg = 0#8 ∧ State.reset.len0 = 0#16 ∧
  State.reset.len1 = 0#16 ∧ State.reset.dlen = 0#16 ∧ State.reset.rw = 0#16 ∧ State.reset.rh = 0#16 ∧
  State.reset.err = 0#2 ∧ State.reset.done = false ∧ State.reset.lastBusy = false ∧ State.reset.gpioOpen = false ∧
  State.reset.oe = false ∧ State.reset.spiOpen = false ∧ State.reset.rstL = true ∧ State.reset.dcL = false ∧
  State.reset.csL = true ∧ State.reset.trace = [] ∧ State.reset.seq = SeqRegs.free 0 ∧
  ∀ b i, State.reset.bufByte b i = Config.unwrittenByte 0 b.number i

/-! ## Requests -/

/-- Acceptance, the whole of 41_protocol R153: reserved codes are BadRequest, then the session state is checked, then
SENDBUF's length, and else the operation starts. -/
def Obligations.AcceptanceInTheOrderOfChecks : Prop :=
  ∀ (w : BitVec 12) (s : State), s.op = .idle →
    ((reqOp w = 0x0#4 ∨ 0xB#4 ≤ reqOp w) → exec (decodeRequest w) s = .next (s.rejected (reqOp w) 3#2 (reqArg w))) ∧
    ∀ op : Op, op ≠ .idle → reqOp w = op.code →
      (¬ admits op s.session → exec (decodeRequest w) s = .next (s.rejected (reqOp w) 2#2 (reqArg w))) ∧
      (admits op s.session → ¬ s.lengthOk op →
        exec (decodeRequest w) s = .next (s.rejected (reqOp w) 3#2 (reqArg w))) ∧
      (admits op s.session → s.lengthOk op → exec (decodeRequest w) s = .next (s.accepted op (reqArg w)))

/-- Each of the ten host operations is accepted in the session states that admit it and its sequencer starts at row 0; it
is turned away with InvalidState in the others (41_protocol R171, 60_exceptions R223). -/
def Obligations.HostOperationIsAdmittedByState : Prop :=
  ∀ p ∈ hostOps, ∀ (arg : Byte) (s : State), s.op = .idle →
    (admits p.1 s.session → s.lengthOk p.1 → exec (p.2 arg) s = .next (s.accepted p.1 arg)) ∧
    (¬ admits p.1 s.session → exec (p.2 arg) s = .next (s.rejected p.1.code 2#2 arg))

/-- A reserved op code is BadRequest in every session state: only ARG, ERR, DONE and the trace change, and the block
stays idle (30_encoding R115). -/
def Obligations.ReservedCodesAreBadRequests : Prop :=
  ∀ p ∈ reservedOps, ∀ (arg : Byte) (s : State), s.op = .idle →
    exec (p.2 arg) s = .next (s.rejected p.1 3#2 arg)

/-- SENDBUF of no byte, or of more than the buffer holds, is BadRequest in Initialized, and InvalidState elsewhere
(40_transport R135, 60_exceptions R224, R228). -/
def Obligations.SendbufLengthIsChecked : Prop :=
  ∀ (arg : Byte) (s : State), s.op = .idle → (s.dlen = 0#16 ∨ Config.dbufDepth < s.dlen.toNat) →
    (s.session = .initialized → exec (.sendbuf arg) s = .next (s.rejected 9#4 3#2 arg)) ∧
    (s.session ≠ .initialized → exec (.sendbuf arg) s = .next (s.rejected 9#4 2#2 arg))

/-- A running block accepts no request: nothing changes (10_state R57, 92_eei_decisions D27; log 11). -/
def Obligations.RunningBlockAcceptsNoRequest : Prop :=
  (∀ p ∈ hostOps, ∀ (arg : Byte) (s : State), s.op ≠ .idle → exec (p.2 arg) s = .next s) ∧
  (∀ p ∈ reservedOps, ∀ (arg : Byte) (s : State), s.op ≠ .idle → exec (p.2 arg) s = .next s)

/-- The frame of the sixteen requests: whatever the outcome, the session state, the handles, the pin latches, LASTBUSY, the
operand registers but ARG, every byte of every buffer, the raster, and all inputs are unchanged, and the trace gains at
most one `Ret` (41_protocol R153). -/
def Obligations.FrameOfTheRequests : Prop :=
  ∀ (i : Instr) (s t : State), i.space = .host → exec i s = .next t →
    t.session = s.session ∧ t.gpioOpen = s.gpioOpen ∧ t.spiOpen = s.spiOpen ∧ t.rstL = s.rstL ∧ t.dcL = s.dcL ∧
    t.csL = s.csL ∧ t.lastBusy = s.lastBusy ∧ t.len0 = s.len0 ∧ t.len1 = s.len1 ∧ t.dlen = s.dlen ∧ t.rw = s.rw ∧
    t.rh = s.rh ∧ (∀ b k, t.bufByte b k = s.bufByte b k) ∧ t.raster = s.raster ∧ t.host = s.host ∧
    t.rstIn = s.rstIn ∧ (∀ k, t.xferAt k = s.xferAt k) ∧ (∀ k, t.busyAt k = s.busyAt k) ∧
    (t.trace = s.trace ∧ t.err = s.err ∧ t.done = s.done ∨
      ∃ o e, t.trace = s.trace ++ [.ret o e] ∧ t.err = e ∧ t.done = true)

/-! ## The panel commands and the transport -/

/-- SUB 0 and 1 of each of the ten command frames: DC is written 0, then CS is written 0 (40_transport R131). -/
def Obligations.CommandFrameSelects : Prop :=
  ∀ p ∈ panelCommands, ∀ s : State, s.commandByte? = some p.1 →
    (s.seq.sub = 0#2 → exec p.2 s =
      .next { s with dcL := false, trace := s.trace ++ [.pin .dc false], seq := { s.seq with sub := 1#2 } }) ∧
    (s.seq.sub = 1#2 → exec p.2 s =
      .next { s with csL := false, trace := s.trace ++ [.pin .cs false], seq := { s.seq with sub := 2#2 } })

/-- SUB 2 of each of the ten command frames: its byte, alone, is transferred and the result latched in XFAIL; while the
collaborator has not finished, the sequencer stays and emits nothing (40_transport R131, 20_memory R71). -/
def Obligations.CommandFrameTransfers : Prop :=
  ∀ p ∈ panelCommands, ∀ s : State, s.commandByte? = some p.1 → s.seq.sub = 2#2 →
    (∀ r, s.xferAt 0 = .answer r → exec p.2 s =
      .next { s with trace := s.trace ++ [.xfer [p.1] r], seq := { s.seq with sub := 3#2, xfail := r == .fail },
                     xferIn := s.xferIn.tail, xferDrawn := s.xferDrawn + 1 }) ∧
    (s.xferAt 0 = .pending → exec p.2 s =
      .next { s with xferIn := s.xferIn.tail, xferDrawn := s.xferDrawn + 1 })

/-- SUB 3 of each of the ten command frames: CS is written back to 1, and a good frame ends its phase; a failed one, CS back
at 1, raises TransferFailure in a step of its own, which ends the operation (40_transport R131, R136, 60_exceptions R222,
R226; that the raise is a step of its own: log 28). -/
def Obligations.CommandFrameCloses : Prop :=
  ∀ p ∈ panelCommands, ∀ s : State, s.commandByte? = some p.1 → s.seq.sub = 3#2 →
    (s.seq.xfail = false → exec p.2 s =
      .next { s with csL := true, trace := s.trace ++ [.pin .cs true],
                     seq := { s.seq with ph := s.seq.ph + 1#6, sub := 0#2, idx := 0#16 } }) ∧
    (s.seq.xfail = true → s.csL = false → exec p.2 s =
      .next { s with csL := true, trace := s.trace ++ [.pin .cs true] }) ∧
    (s.seq.xfail = true → s.csL = true → exec p.2 s =
      .next { s with trace := s.trace ++ [.ret s.op.code 1#2], err := 1#2, done := true,
                     op := .idle, seq := SeqRegs.free s.draws, draws := s.draws + 1 })

/-- The frame of the ten panel commands: the session state, the handles, RST_L, LASTBUSY, every operand register, every byte
of every buffer, the raster, the host's actions and the BUSY samples are unchanged; ERR, DONE and OP change only where the
operation ends by a failed transfer (40_transport R131, R136, 60_exceptions R226). That this end leaves CS_L, which the step
before it wrote back to 1, and emits its `Ret` and nothing else is the model's deduction (log 28, from 00_scope R14: one event
a step); R131 writes both in one sub-step. -/
def Obligations.FrameOfThePanelCommands : Prop :=
  ∀ (i : Instr) (s t : State), i.space = .wire → exec i s = .next t →
    t.session = s.session ∧ t.gpioOpen = s.gpioOpen ∧ t.spiOpen = s.spiOpen ∧ t.rstL = s.rstL ∧
    t.lastBusy = s.lastBusy ∧ t.arg = s.arg ∧ t.len0 = s.len0 ∧ t.len1 = s.len1 ∧ t.dlen = s.dlen ∧ t.rw = s.rw ∧
    t.rh = s.rh ∧ (∀ b k, t.bufByte b k = s.bufByte b k) ∧ t.raster = s.raster ∧ t.host = s.host ∧
    t.rstIn = s.rstIn ∧ (∀ k, t.busyAt k = s.busyAt k) ∧
    (t.err = s.err ∧ t.done = s.done ∧ t.op = s.op ∧ t.seq.y = s.seq.y ∧ t.seq.x = s.seq.x ∧
        t.seq.stride = s.seq.stride ∨
      t.err = 1#2 ∧ t.done = true ∧ t.op = .idle ∧ t.dcL = s.dcL ∧ t.csL = s.csL ∧
        t.trace = s.trace ++ [.ret s.op.code 1#2])

/-- Where the sequencer does not stand at its code, a panel command does nothing (41_protocol R150; log 12). -/
def Obligations.PanelCommandOnlyAtItsRow : Prop :=
  ∀ p ∈ panelCommands, ∀ s : State, s.commandByte? ≠ some p.1 → exec p.2 s = .next s

/-- A CMD row, with any byte, is the command frame of that byte: from wherever in the frame the sequencer stands, and after
any number of asks the collaborator leaves without an answer, the rest of the frame is sent and the next row begins; with a
failed transfer the frame has the same four events with `fail`, and the operation then returns TransferFailure (40_transport
R131, R136, 20_memory R71, 30_encoding R116; one event a step: log 28). -/
def Obligations.CommandRowSendsItsFrame : Prop :=
  ∀ (s : State) (c : Byte) (p : Nat), s.op ≠ .idle → s.quiet → s.commandByte? = some c →
    (s.frameGets p .ok → ∃ t, Reaches (4 - s.seq.sub.toNat + p) s t ∧ FrameSent false (cmdFrame c .ok) s t ∧
      t.seq.ph = s.seq.ph + 1#6 ∧ t.seq.idx = 0#16) ∧
    (s.frameGets p .fail → (2 ≤ s.seq.sub.toNat → s.csL = false) →
      ∃ t, Reaches (5 - s.seq.sub.toNat + p) s t ∧ FrameFailed false (cmdFrame c .fail) s t)

/-- A DATA row is one data frame of all its bytes, one transfer: from wherever in the frame the sequencer stands, and after
any number of asks without an answer, to the next row, or to the return of TransferFailure (40_transport R133, R136,
20_memory R71; one event a step: log 28). -/
def Obligations.DataRowSendsOneFrame : Prop :=
  ∀ (s : State) (d : DataForm) (p : Nat), s.op ≠ .idle → s.quiet → s.row? = some (.data d) →
    (s.frameGets p .ok → ∃ t, Reaches (4 - s.seq.sub.toNat + p) s t ∧ FrameSent true (dataFrame (d.bytes s) .ok) s t ∧
      t.seq.ph = s.seq.ph + 1#6 ∧ t.seq.idx = 0#16) ∧
    (s.frameGets p .fail → (2 ≤ s.seq.sub.toNat → s.csL = false) →
      ∃ t, Reaches (5 - s.seq.sub.toNat + p) s t ∧ FrameFailed true (dataFrame (d.bytes s) .fail) s t)

/-- A LOOPDATA row (41_protocol R159, 40_transport R133), from its entry with IDX at 0: src(0) to src(n - 1) in that order,
each in a data frame of its own, IDX counting them, then the one silent step, which is all there is for n = 0; a failed
transfer at byte i raises TransferFailure after that frame (40_transport R136, 60_exceptions R226), and no byte after i is
sent. Transfer k may be left without an answer `p k` times (20_memory R71, log 1), and that the raise is a step of its own is
the model's deduction (log 28). From wherever in the frame of byte IDX the sequencer stands, that frame goes to its end and
IDX counts it. src is a byte of PLANE0, of PLANE1, or ARG. -/
def Obligations.LoopRowSendsItsBytesInOrder : Prop :=
  ∀ (s : State) (l : LoopForm), s.op ≠ .idle → s.quiet → s.row? = some (.loopData l) →
    (s.seq.sub = 0#2 → s.seq.idx = 0#16 → ∀ p : Nat → Nat,
      (s.xfersOkAfter p (l.count s) → ∃ t, Reaches (3 * l.count s + asksOf p (l.count s) + 1) s t ∧
        t.trace = s.trace ++ byteFrames ((List.range (l.count s)).map fun k => l.byte s k) ∧ t.op = s.op ∧
        t.seq.ph = s.seq.ph + 1#6 ∧ t.seq.sub = 0#2 ∧ t.seq.idx = 0#16) ∧
      (∀ i, i ≤ l.count s → s.xfersOkAfter p i → ∃ t, Reaches (3 * i + asksOf p i) s t ∧
        t.trace = s.trace ++ byteFrames ((List.range i).map fun k => l.byte s k) ∧ t.op = s.op ∧
        t.seq.ph = s.seq.ph ∧ t.seq.sub = 0#2 ∧ t.seq.idx.toNat = i) ∧
      (∀ i < l.count s, s.xfersOkAfter p i → s.answered (asksOf p i) (p i) .fail →
        ∃ t, Reaches (3 * i + asksOf p (i + 1) + 4) s t ∧
          t.trace = s.trace ++ byteFrames ((List.range i).map fun k => l.byte s k) ++ dataFrame [l.byte s i] .fail ++
            [.ret s.op.code 1#2] ∧ t.op = .idle ∧ t.err = 1#2 ∧ t.csL = true)) ∧
    (∀ p, (s.seq.sub = 0#2 → s.seq.idx.toNat < l.count s) → s.frameGets p .ok →
      ∃ t, Reaches (4 - s.seq.sub.toNat + p) s t ∧ FrameSent true (dataFrame [l.byte s s.seq.idx.toNat] .ok) s t ∧
        t.seq.ph = s.seq.ph ∧ t.seq.idx = s.seq.idx + 1#16) ∧
    (l = .plane0 → ∀ k, l.byte s k = s.bufByte .plane0 k) ∧ (l = .plane1 → ∀ k, l.byte s k = s.bufByte .plane1 k) ∧
    (l = .fill → ∀ k, l.byte s k = s.arg)

/-- A failed transfer (40_transport R136): the frame of any CMD, DATA or LOOPDATA row, from wherever in it the sequencer
stands and after any number of asks without an answer, emits the same four events as a good one, with `fail` in the third;
CS is back at 1 before TransferFailure is raised, which ends the operation, so that nothing after the frame is sent (60_exceptions
R226). That the raise is a step of its own, at SUB 3 with CS already at 1, is the model's deduction (log 28), R131 and R133
writing both in one sub-step; the late answers are 20_memory R71 and log 1. -/
def Obligations.FailedTransferStillDeselects : Prop :=
  ∀ (s : State) (p : Nat), s.op ≠ .idle → s.quiet → s.frameGets p .fail →
    ((2 ≤ s.seq.sub.toNat → s.csL = false) →
      (∀ c, s.row? = some (.cmd c) → ∃ t, Reaches (5 - s.seq.sub.toNat + p) s t ∧
        FrameFailed false (cmdFrame (c.byte s) .fail) s t) ∧
      (∀ d, s.row? = some (.data d) → ∃ t, Reaches (5 - s.seq.sub.toNat + p) s t ∧
        FrameFailed true (dataFrame (d.bytes s) .fail) s t) ∧
      (∀ l, s.row? = some (.loopData l) → (s.seq.sub = 0#2 → s.seq.idx.toNat < l.count s) →
        ∃ t, Reaches (5 - s.seq.sub.toNat + p) s t ∧
          FrameFailed true (dataFrame [l.byte s s.seq.idx.toNat] .fail) s t)) ∧
    (∀ r, s.row? = some r → r.sendsFrames = true → s.seq.sub = 3#2 →
      (s.csL = false → ∃ t, Reaches 1 s t ∧ t.trace = s.trace ++ [.pin .cs true] ∧ t.csL = true ∧ t.op = s.op ∧
        t.seq = s.seq) ∧
      (s.csL = true → ∃ t, Reaches 1 s t ∧ t.trace = s.trace ++ [.ret s.op.code 1#2] ∧ t.csL = true ∧ t.op = .idle ∧
        t.err = 1#2 ∧ t.done = true))

/-- A transfer the collaborator has not finished holds the sequencer at SUB = 2 with no event, however long (20_memory R71,
60_exceptions R227). -/
def Obligations.UnfinishedTransferHolds : Prop :=
  ∀ (n : Nat) (s : State) (r : Row), s.op ≠ .idle → s.quiet → s.row? = some r → r.sendsFrames = true →
    s.seq.sub = 2#2 → (∀ k < n, s.xferAt k = .pending) →
    ∃ t, Reaches n s t ∧ t.trace = s.trace ∧ t.op = s.op ∧ t.seq = s.seq ∧ t.csL = s.csL

/-! ## The rows of the phase tables -/

/-- The rows of one step: ACQ, REL, PIN, DELAY and SETSTATE (41_protocol R152, R155, R156, R161, R162, R163), each of which
then goes on to the next row. That the step ends a DONE pulse and takes one level of rst_n is the model's choice (log 8,
9). -/
def Obligations.RowsOfOneStep : Prop :=
  ∀ s : State, s.inReset = false → s.op ≠ .idle →
    let u : State := { s with done := false, rstIn := s.rstIn.tail,
                              seq := { s.seq with ph := s.seq.ph + 1#6, sub := 0#2, idx := 0#16 } }
    (s.row? = some (.acq .gpio) → step s = .next { u with gpioOpen := true, trace := s.trace ++ [.acq .gpio] }) ∧
    (s.row? = some (.acq .spi) → step s = .next { u with spiOpen := true, trace := s.trace ++ [.acq .spi] }) ∧
    (s.row? = some .relSpi → step s = .next { u with spiOpen := false, trace := s.trace ++ [.relSpi] }) ∧
    (∀ p v, s.row? = some (.pin p v) →
      step s = .next (State.setLatch p v { u with trace := s.trace ++ [.pin p v] })) ∧
    (∀ d, s.row? = some (.delay d) → step s = .next { u with trace := s.trace ++ [.delay d] }) ∧
    (∀ st, s.row? = some (.setState st) → step s = .next { u with session := st })

/-- A WAITBUSY row: a sample of 1 ends the phase, a sample of 0 leads to the delay, and the delay to the next sample
(41_protocol R160, 10_state R31, R35). -/
def Obligations.WaitRowPollsBusy : Prop :=
  ∀ s : State, s.inReset = false → s.op ≠ .idle → s.row? = some .waitBusy →
    let u : State := { s with done := false, rstIn := s.rstIn.tail }
    (s.seq.sub = 0#2 →
      step s = .next { u with lastBusy := s.busyAt 0, trace := s.trace ++ [.busy (s.busyAt 0)],
                              busyIn := s.busyIn.tail, busyDrawn := s.busyDrawn + 1,
                              seq := if s.busyAt 0 then { s.seq with ph := s.seq.ph + 1#6, sub := 0#2, idx := 0#16 }
                                     else { s.seq with sub := 1#2 } }) ∧
    (s.seq.sub = 1#2 →
      step s = .next { u with trace := s.trace ++ [.delay 100], seq := { s.seq with sub := 0#2 } })

/-- The END row returns code 0: ERR is 0, DONE pulses, `Ret(OP, 0)` is the event and the block is idle (41_protocol R154). -/
def Obligations.EndRowReturns : Prop :=
  ∀ s : State, s.inReset = false → s.op ≠ .idle → s.row? = some .finish →
    step s = .next { s with rstIn := s.rstIn.tail, err := 0#2, done := true, trace := s.trace ++ [.ret s.op.code 0#2],
                            op := .idle, seq := SeqRegs.free s.draws, draws := s.draws + 1 }

/-! ## Whole operations -/

/-- RESET from its request to its return (41_protocol R164). -/
def Obligations.ResetPulsesTheLine : Prop :=
  ∀ (s : State) (w : BitVec 12), s.ready w → reqOp w = 0x1#4 → s.session = .initialized →
    ∃ t, Reaches 8 s t ∧ t.trace = s.trace ++ pulseEvents ++ [.ret 0x1#4 0#2] ∧ t.op = .idle ∧ t.rstL = true ∧
      t.dcL = s.dcL ∧ t.csL = s.csL ∧ t.session = .initialized ∧ t.err = 0#2 ∧ t.done = true ∧
      t.gpioOpen = s.gpioOpen ∧ t.spiOpen = s.spiOpen ∧ t.lastBusy = s.lastBusy

/-- INIT from its request to its return, from Uninitialized or Sleeping, when its 13 transfers succeed and BUSY reads 0 at
m samples and then 1 (41_protocol R165). -/
def Obligations.InitConfiguresThePanel : Prop :=
  ∀ (s : State) (w : BitVec 12) (m : Nat), s.ready w → reqOp w = 0x2#4 → s.session ≠ .initialized →
    s.xfersOk 13 → s.busyFor m →
    ∃ t, Reaches (64 + 2 * m) s t ∧ t.trace = s.trace ++ initEvents m ++ [.ret 0x2#4 0#2] ∧ t.op = .idle ∧
      t.session = .initialized ∧ t.gpioOpen = true ∧ t.spiOpen = true ∧ t.rstL = true ∧ t.dcL = true ∧ t.csL = true ∧
      t.lastBusy = true ∧ t.err = 0#2 ∧ t.done = true ∧ t.status = 0x39 ∧ t.pins = 0x0F

/-- DISPLAY from its request to its return: the first min(LEN[p], 2756) bytes of each plane, each in its own frame, then
the refresh, the settle delay and the busy-wait; planes and lengths are not written (41_protocol R167, R170). -/
def Obligations.DisplaySendsBothPlanes : Prop :=
  ∀ (s : State) (w : BitVec 12) (m : Nat), s.ready w → reqOp w = 0x3#4 → s.session = .initialized →
    s.xfersOk (3 + planeBound s.len0 + planeBound s.len1) → s.busyFor m →
    ∃ t, Reaches (18 + 4 * planeBound s.len0 + 4 * planeBound s.len1 + 2 * m) s t ∧
      t.trace = s.trace ++ frameEvents (s.sentBytes .plane0 s.len0) (s.sentBytes .plane1 s.len1) m ++ [.ret 0x3#4 0#2] ∧
      t.op = .idle ∧ t.session = .initialized ∧ t.dcL = false ∧ t.csL = true ∧ t.rstL = s.rstL ∧ t.lastBusy = true ∧
      t.err = 0#2 ∧ t.len0 = s.len0 ∧ t.len1 = s.len1 ∧ ∀ b k, t.bufByte b k = s.bufByte b k

/-- CLEAR from its request to its return: the fill byte 2756 times for each plane; the buffers and their lengths are neither
read nor written (41_protocol R168). -/
def Obligations.ClearSendsTheFillByte : Prop :=
  ∀ (s : State) (w : BitVec 12) (m : Nat), s.ready w → reqOp w = 0x4#4 → s.session = .initialized →
    s.xfersOk 5515 → s.busyFor m →
    ∃ t, Reaches (22066 + 2 * m) s t ∧
      t.trace = s.trace ++ frameEvents (List.replicate 2756 (reqArg w)) (List.replicate 2756 (reqArg w)) m ++
        [.ret 0x4#4 0#2] ∧
      t.op = .idle ∧ t.session = .initialized ∧ t.dcL = false ∧ t.csL = true ∧ t.rstL = s.rstL ∧ t.lastBusy = true ∧
      t.err = 0#2 ∧ t.arg = reqArg w ∧ t.len0 = s.len0 ∧ t.len1 = s.len1 ∧ ∀ b k, t.bufByte b k = s.bufByte b k

/-- CLEAR of f and DISPLAY of two full planes of f take as many steps and put the same events on the wire; only the
operation named in the `Ret` differs (30_encoding R121, 41_protocol R168). -/
def Obligations.ClearEqualsDisplayOfFullPlanes : Prop :=
  ∀ (s u : State) (w v : BitVec 12) (m : Nat), s.ready w → reqOp w = 0x4#4 → s.session = .initialized →
    s.xfersOk 5515 → s.busyFor m → u.ready v → reqOp v = 0x3#4 → u.session = .initialized → u.xfersOk 5515 →
    u.busyFor m → 2756 ≤ u.len0.toNat → 2756 ≤ u.len1.toNat →
    (∀ k < 2756, u.bufByte .plane0 k = reqArg w ∧ u.bufByte .plane1 k = reqArg w) →
    ∃ n t x es, Reaches n s t ∧ Reaches n u x ∧ t.trace = s.trace ++ es ++ [.ret 0x4#4 0#2] ∧
      x.trace = u.trace ++ es ++ [.ret 0x3#4 0#2]

/-- READBUSY from its request to its return, BUSY reading 0 at m samples and then 1 (41_protocol R166). -/
def Obligations.ReadbusyWaitsForRelease : Prop :=
  ∀ (s : State) (w : BitVec 12) (m : Nat), s.ready w → reqOp w = 0x5#4 → s.session = .initialized → s.busyFor m →
    ∃ t, Reaches (3 + 2 * m) s t ∧ t.trace = s.trace ++ busyWait m ++ [.ret 0x5#4 0#2] ∧ t.op = .idle ∧
      t.lastBusy = true ∧ t.err = 0#2 ∧ t.session = .initialized ∧ t.rstL = s.rstL ∧ t.dcL = s.dcL ∧ t.csL = s.csL

/-- SLEEP from its request to its return (41_protocol R169): the SPI handle is released, the pins stay driven with RST and
DC at 0. -/
def Obligations.SleepReleasesAndHoldsLow : Prop :=
  ∀ (s : State) (w : BitVec 12) (m : Nat), s.ready w → reqOp w = 0x6#4 → s.session = .initialized →
    s.xfersOk 3 → s.busyFor m →
    ∃ t, Reaches (20 + 2 * m) s t ∧ t.trace = s.trace ++ sleepEvents m ++ [.ret 0x6#4 0#2] ∧ t.op = .idle ∧
      t.session = .sleeping ∧ t.spiOpen = false ∧ t.gpioOpen = s.gpioOpen ∧ t.rstL = false ∧ t.dcL = false ∧
      t.csL = true ∧ t.lastBusy = true ∧ t.err = 0#2

/-- SENDCMD, SENDDATA and SENDBUF from request to return, with a transfer that succeeds or fails, after p asks without an
answer: one frame, then
`Ret` with code 0 or TransferFailure; SENDBUF's bytes go in one transfer, ascending (40_transport R132, R134, R135). -/
def Obligations.TransportOperationsSendOneFrame : Prop :=
  ∀ (s : State) (w : BitVec 12) (r : XferResult) (p : Nat), s.ready w → s.session = .initialized →
    s.answered 0 p r →
    let e : BitVec 2 := if r = .ok then 0#2 else 1#2
    (reqOp w = 0x7#4 → ∃ t, Reaches (6 + p) s t ∧ t.trace = s.trace ++ cmdFrame (reqArg w) r ++ [.ret 0x7#4 e] ∧
      t.op = .idle ∧ t.err = e ∧ t.session = .initialized ∧ t.csL = true ∧ t.dcL = false) ∧
    (reqOp w = 0x8#4 → ∃ t, Reaches (6 + p) s t ∧ t.trace = s.trace ++ dataFrame [reqArg w] r ++ [.ret 0x8#4 e] ∧
      t.op = .idle ∧ t.err = e ∧ t.session = .initialized ∧ t.csL = true ∧ t.dcL = true) ∧
    (reqOp w = 0x9#4 → 1 ≤ s.dlen.toNat → s.dlen.toNat ≤ Config.dbufDepth → ∃ t, Reaches (6 + p) s t ∧
      t.trace = s.trace ++ dataFrame ((List.range s.dlen.toNat).map (s.bufByte .dbuf)) r ++ [.ret 0x9#4 e] ∧
      t.op = .idle ∧ t.err = e ∧ t.session = .initialized ∧ t.csL = true ∧ t.dcL = true)

/-- ENCODE from its request to its return, in any session state: the destination plane holds EncodePlane of the raster and
its length is 2756; the other plane, its length, the session, the handles and the pins are untouched, and the only event
is the `Ret` (42_encoder R206, R194). That it takes 24808 steps, one for each byte of FILL and each pixel of SCAN, is the
model's choice (log 16). -/
def Obligations.EncodeWritesTheEncodedPlane : Prop :=
  ∀ (s : State) (w : BitVec 12), s.ready w → reqOp w = 0xA#4 → s.MemOk →
    let p : Buf := if (reqArg w).getLsbD 0 then .plane1 else .plane0
    ∃ t, Reaches (1 + 2757 + 22048 + 2) s t ∧ t.planeContents p = encodePlane s.rw s.rh s.raster ∧
      (p = .plane0 → t.len0 = 2756#16 ∧ t.len1 = s.len1) ∧ (p = .plane1 → t.len1 = 2756#16 ∧ t.len0 = s.len0) ∧
      (∀ b k, b ≠ p → t.bufByte b k = s.bufByte b k) ∧ t.trace = s.trace ++ [.ret 0xA#4 0#2] ∧ t.op = .idle ∧
      t.err = 0#2 ∧ t.session = s.session ∧ t.gpioOpen = s.gpioOpen ∧ t.spiOpen = s.spiOpen ∧ t.rstL = s.rstL ∧
      t.dcL = s.dcL ∧ t.csL = s.csL ∧ t.lastBusy = s.lastBusy

/-- A WAITBUSY phase (41_protocol R160): it samples first; with the first 1 at sample m + 1 it has made m delays of 100 ms
and its last event is `Busy(1)`; and while every sample reads 0 it goes on without a bound: after n of them it has emitted n
times `Busy(0), Delay(100)` and stands where it stood, with no return (60_exceptions R227). -/
def Obligations.BusyWaitEndsOnlyWhenReleased : Prop :=
  ∀ s : State, s.op ≠ .idle → s.quiet → s.row? = some .waitBusy → s.seq.sub = 0#2 →
    (∀ m, s.busyFor m → ∃ t, Reaches (2 * m + 1) s t ∧ t.trace = s.trace ++ busyWait m ∧ t.lastBusy = true ∧
      t.op = s.op ∧ t.seq.ph = s.seq.ph + 1#6 ∧ t.seq.sub = 0#2) ∧
    (∀ n, (∀ k < n, s.busyAt k = false) → ∃ t, Reaches (2 * n) s t ∧ t.op = s.op ∧ t.seq = s.seq ∧
      t.session = s.session ∧ t.host = s.host ∧
      t.trace = s.trace ++ (List.replicate n [Event.busy false, Event.delay 100]).flatten)

/-! ## The whole machine -/

/-- STATE changes only at the SETSTATE row of an INIT or a SLEEP, and at hardware reset (60_exceptions R241). -/
def Obligations.SessionChangesOnlyAtSetState : Prop :=
  ∀ s t : State, step s = .next t → t.session ≠ s.session →
    (s.inReset = true ∧ t.session = .uninitialized) ∨
    (s.op = .init ∧ s.seq.ph = 22#6 ∧ t.session = .initialized) ∨
    (s.op = .sleep ∧ s.seq.ph = 8#6 ∧ t.session = .sleeping)

/-- Nothing but hardware reset clears GPIO_OPEN, and only row 5 of SLEEP and hardware reset clear SPI_OPEN (10_state R42,
41_protocol R162). -/
def Obligations.HandlesAreKept : Prop :=
  ∀ s t : State, step s = .next t → s.inReset = false →
    (s.gpioOpen = true → t.gpioOpen = true) ∧
    (s.spiOpen = true → t.spiOpen = false → s.op = .sleep ∧ s.seq.ph = 5#6)

/-- A running operation holds the host off, and leaves ARG, DLEN, RW, RH and DBUF; only ENCODE writes a plane or a length,
and only those of its destination (10_state R21, R57, 41_protocol R168, 42_encoder R206). -/
def Obligations.RunningOperationKeepsOperands : Prop :=
  ∀ s t : State, step s = .next t → s.inReset = false → s.op ≠ .idle →
    t.host = s.host ∧ t.raster = s.raster ∧ t.arg = s.arg ∧ t.dlen = s.dlen ∧ t.rw = s.rw ∧ t.rh = s.rh ∧
    t.dbuf = s.dbuf ∧
    (s.op ≠ .encode ∨ s.dest = .plane1 → t.plane0 = s.plane0 ∧ t.len0 = s.len0) ∧
    (s.op ≠ .encode ∨ s.dest = .plane0 → t.plane1 = s.plane1 ∧ t.len1 = s.len1)

/-- Events are only ever appended, and no step appends more than one (00_scope R14, 20_memory R70, 92_eei_decisions D5;
log 28). -/
def Obligations.TraceGrowsByOneEvent : Prop :=
  ∀ s t : State, step s = .next t → s.inReset = false → ∃ es, t.trace = s.trace ++ es ∧ es.length ≤ 1

/-- The flags follow the events: DONE is 1 after a step exactly when that step ended in a `Ret`, ERR is that `Ret`'s code
and else keeps its value, and LASTBUSY is the last sample (10_state R35, 60_exceptions R229). -/
def Obligations.FlagsFollowTheEvents : Prop :=
  ∀ s t : State, step s = .next t → s.inReset = false →
    (t.done = true ↔ ∃ es o e, t.trace = s.trace ++ es ++ [.ret o e]) ∧
    (∀ es o e, t.trace = s.trace ++ es ++ [.ret o e] → t.err = e) ∧
    (t.done = false → t.err = s.err) ∧
    (∀ v, t.trace = s.trace ++ [.busy v] → t.lastBusy = v) ∧
    (t.lastBusy ≠ s.lastBusy → t.trace = s.trace ++ [.busy t.lastBusy])

/-- No byte leaves the block but through an open SPI handle with the pins driven, in Initialized or inside INIT; in
Sleeping nothing but INIT reaches the panel (41_protocol R171, 60_exceptions R223). -/
def Obligations.TransfersOnlyWithHandles : Prop :=
  ∀ (s t : State) (bs : List Byte) (r : XferResult), s.SeqOk → s.SessOk → step s = .next t → s.inReset = false →
    t.trace = s.trace ++ [.xfer bs r] →
    s.spiOpen = true ∧ s.gpioOpen = true ∧ (s.session = .initialized ∨ s.op = .init) ∧ s.csL = false

/-- No frame changes DC while CS is low (40_transport R137). -/
def Obligations.DcHeldWhileSelected : Prop :=
  ∀ s t : State, s.SeqOk → s.SessOk → step s = .next t → s.inReset = false → s.csL = false → t.dcL = s.dcL

/-- The STATUS, ERR and PINS words, bit by bit, the operand registers of an idle block, the registers that read as 0, and
the output pins, which carry their latches while they are driven (10_state R43, R44; 60_exceptions R230). -/
def Obligations.RegisterWordsBitByBit : Prop :=
  ∀ s : State,
    (∃ v, s.readReg 0#4 = some v ∧ v.extractLsb' 0 2 = s.session.code ∧ v.getLsbD 2 = decide (s.op ≠ .idle) ∧
      v.getLsbD 3 = s.gpioOpen ∧ v.getLsbD 4 = s.spiOpen ∧ v.getLsbD 5 = s.lastBusy ∧ v.extractLsb' 6 10 = 0#10) ∧
    (∃ v, s.readReg 1#4 = some v ∧ v.extractLsb' 0 2 = s.err ∧ v.extractLsb' 2 14 = 0#14) ∧
    (∃ v, s.readReg 7#4 = some v ∧ v.getLsbD 0 = s.rstL ∧ v.getLsbD 1 = s.dcL ∧ v.getLsbD 2 = s.csL ∧
      v.getLsbD 3 = s.gpioOpen ∧ v.extractLsb' 4 12 = 0#12) ∧
    (s.op = .idle → s.readReg 2#4 = some s.len0 ∧ s.readReg 3#4 = some s.len1 ∧ s.readReg 4#4 = some s.dlen ∧
      s.readReg 5#4 = some s.rw ∧ s.readReg 6#4 = some s.rh) ∧
    (∀ n : BitVec 4, 8#4 ≤ n → s.readReg n = some 0#16) ∧
    (s.gpioOpen = true → s.pinOut .rst = some s.rstL ∧ s.pinOut .dc = some s.dcL ∧ s.pinOut .cs = some s.csL) ∧
    (s.gpioOpen = false → ∀ p, s.pinOut p = none)

/-- A register write of an idle block sets the register of its number, 2 to 6, and nothing else; every other number
ignores it (10_state R44). -/
def Obligations.RegisterWritesByNumber : Prop :=
  ∀ (s : State) (n : BitVec 4) (v : Word16) (rest : List HostAct), s.inReset = false → s.op = .idle →
    s.host = .writeReg n v :: rest →
    let u : State := { s with done := false, rstIn := s.rstIn.tail, host := rest }
    (n = 2#4 → step s = .next { u with len0 := v }) ∧ (n = 3#4 → step s = .next { u with len1 := v }) ∧
    (n = 4#4 → step s = .next { u with dlen := v }) ∧ (n = 5#4 → step s = .next { u with rw := v }) ∧
    (n = 6#4 → step s = .next { u with rh := v }) ∧ ((n < 2#4 ∨ 6#4 < n) → step s = .next u)

/-- A byte the host writes to a buffer of an idle block is read back there, and no other byte of any buffer changes; past
the end of the buffer the model stops (10_state R50, R57; log 17). -/
def Obligations.BufferWritesLandInPlace : Prop :=
  ∀ (s : State) (b : Buf) (i : Word16) (v : Byte) (rest : List HostAct), s.MemOk → s.inReset = false → s.op = .idle →
    s.host = .writeBuf b i v :: rest →
    (i.toNat < b.depth → ∃ t, step s = .next t ∧ t.op = .idle ∧ t.host = rest ∧ t.trace = s.trace ∧
      ∀ c k, t.bufByte c k = if c = b ∧ k = i.toNat then v else s.bufByte c k) ∧
    (b.depth ≤ i.toNat → step s = .fault .hostWriteOutside)

/-! ## Invariants -/

/-- Every step keeps the memories in canonical form and within their depths (20_memory R69). -/
def Obligations.MemoriesStayCanonical : Prop :=
  ∀ s t : State, s.MemOk → step s = .next t → t.MemOk

/-- Every step keeps a running sequencer at a row of its table with counters that fit it (10_state R31, R32). -/
def Obligations.PositionStaysInItsTable : Prop :=
  ∀ s t : State, s.SeqOk → step s = .next t → t.SeqOk

/-- Every step keeps the session, the handles and CS together (10_state R42, 60_exceptions R242). -/
def Obligations.SessionInvariantIsKept : Prop :=
  ∀ s t : State, s.SeqOk → s.SessOk → step s = .next t → t.SessOk

/-- The state after reset meets the invariants. -/
def Obligations.ResetMeetsTheInvariants : Prop :=
  State.reset.MemOk ∧ State.reset.SeqOk ∧ State.reset.SessOk

/-- With its position in its table, the machine always has a step, unless the host writes past the end of a buffer
(41_protocol R150, 20_memory R69). -/
def Obligations.NoStepIsMissing : Prop :=
  ∀ s : State, s.SeqOk → (∃ t, step s = .next t) ∨
    (∃ b i v rest, s.host = .writeBuf b i v :: rest ∧ b.depth ≤ i.toNat ∧ step s = .fault .hostWriteOutside)

/-! ## The encoder -/

/-- EncodePlane gives 2756 bytes for every raster (42_encoder R205, R200). -/
def Obligations.EncodedPlaneHasItsLength : Prop :=
  ∀ (rw rh : Word16) (r : Raster), (encodePlane rw rh r).length = 2756

/-- A bit of the encoded plane is 0 if and only if some in-bounds pixel below the threshold addresses it: byte
(y * min(212, RW) + x) div 8, bit 7 - (x mod 8) (42_encoder R194, R195, R198). -/
def Obligations.EncodedBitIsClearedByItsPixels : Prop :=
  ∀ (rw rh : Word16) (r : Raster) (k j : Nat), k < 2756 → j < 8 →
    (((encodePlane rw rh r)[k]?.getD 0#8).getLsbD j = false ↔
      ∃ y x, y < 212 ∧ x < 104 ∧ x < rw.toNat ∧ y < rh.toNat ∧ (r.pixel x y).toNat < 128 ∧
        (y * min 212 rw.toNat + x) / 8 = k ∧ j = 7 - x % 8)

/-- For a raster of width 104 the plane is row-major: pixel (y, x) is bit 7 - (x mod 8) of byte 13 y + x div 8
(20_memory R61, R62). -/
def Obligations.NormalRasterIsRowMajor : Prop :=
  ∀ (rh : Word16) (r : Raster) (y x : Nat), y < 212 → x < 104 →
    (((encodePlane 104#16 rh r)[13 * y + x / 8]?.getD 0#8).getLsbD (7 - x % 8) = false ↔
      y < rh.toNat ∧ (r.pixel x y).toNat < 128)

/-- A fully black raster of 104 by 212 gives all-zero bytes, a fully white one, or one with no pixel, all-one bytes
(42_encoder R205, R196, R197). -/
def Obligations.BlackIsZeroWhiteIsOnes : Prop :=
  (∀ r : Raster, (∀ x y, x < 104 → y < 212 → (r.pixel x y).toNat < 128) →
    encodePlane 104#16 212#16 r = List.replicate 2756 0x00#8) ∧
  (∀ (rw rh : Word16) (r : Raster), (∀ x y, x < rw.toNat → y < rh.toNat → 128 ≤ (r.pixel x y).toNat) →
    encodePlane rw rh r = List.replicate 2756 0xFF#8)

/-! ## What the panel sees, and the delays -/

/-- The panel byte stream of an INIT, from its request to its return: thirteen bytes, each with its level of DC (41_protocol
R165, 00_scope R7; 95_test_vectors S6). -/
def Obligations.InitByteStream : Prop :=
  ∀ (s : State) (w : BitVec 12) (m : Nat), s.ready w → reqOp w = 0x2#4 → s.session ≠ .initialized →
    s.xfersOk 13 → s.busyFor m →
    ∃ n t es, Reaches n s t ∧ t.op = .idle ∧ t.trace = s.trace ++ es ++ [.ret 0x2#4 0#2] ∧ panelBytes s.dcL es =
      [(false, 0x06#8), (true, Config.booster 0), (true, Config.booster 1), (true, Config.booster 2), (false, 0x04#8),
       (false, 0x00#8), (true, 0x8F#8), (false, 0x50#8), (true, 0xF0#8), (false, 0x61#8), (true, 0x68#8),
       (true, 0x00#8), (true, 0xD4#8)]

/-- The least time of each operation that waits, from its request to its return: the sum of the delays its run appends to
the trace, with m samples of BUSY at 0 (70_reset R280, 41_protocol R156). -/
def Obligations.LeastTimesOfTheOperations : Prop :=
  ∀ (s : State) (w : BitVec 12) (m : Nat), s.ready w → s.busyFor m →
    let takes (ms : Nat) : Prop :=
      ∃ n t es, Reaches n s t ∧ t.op = .idle ∧ t.trace = s.trace ++ es ++ [.ret (reqOp w) 0#2] ∧ leastMs es = ms
    (s.session ≠ .initialized → reqOp w = 0x2#4 → s.xfersOk 13 → takes (402 + 100 * m)) ∧
    (s.session = .initialized →
      (reqOp w = 0x1#4 → takes 402) ∧
      (reqOp w = 0x3#4 → s.xfersOk (3 + planeBound s.len0 + planeBound s.len1) → takes (100 + 100 * m)) ∧
      (reqOp w = 0x4#4 → s.xfersOk 5515 → takes (100 + 100 * m)) ∧
      (reqOp w = 0x5#4 → takes (100 * m)) ∧
      (reqOp w = 0x6#4 → s.xfersOk 3 → takes (2000 + 100 * m)))

/-! ## The raster port -/

/-- A raster the host presents to an idle block is the one it reads from then on, and nothing else changes: a listed pixel
reads as its value, any other as the background (10_state R53, R57, 60_exceptions R232; the form of a raster and the host's
list: log 6, 7). -/
def Obligations.PresentedRasterIsRead : Prop :=
  ∀ (s : State) (r : Raster) (rest : List HostAct), s.inReset = false → s.op = .idle → s.host = .present r :: rest →
    ∃ t, step s = .next t ∧ t = { s with done := false, rstIn := s.rstIn.tail, host := rest, raster := r } ∧
      ∀ bg px, r = .cells bg px → Memory.wf px = true → ∀ x y, x < 65536 →
        (∀ v, (65536 * y + x, v) ∈ px → t.raster.pixel x y = v) ∧
        ((∀ v, (65536 * y + x, v) ∉ px) → t.raster.pixel x y = bg)
end

