-- ==== Sys2Proof/Laws/State.lean ====
section
/-! SUPPORT. What each update of the state does to each field: one lemma a field and update, true by unfolding. -/

namespace Sys2Proof.Machine

section
variable (e : Event) (s : State)
@[simp] theorem emit_arg : (s.emit e).arg = s.arg := rfl
@[simp] theorem emit_len0 : (s.emit e).len0 = s.len0 := rfl
@[simp] theorem emit_len1 : (s.emit e).len1 = s.len1 := rfl
@[simp] theorem emit_dlen : (s.emit e).dlen = s.dlen := rfl
@[simp] theorem emit_rw : (s.emit e).rw = s.rw := rfl
@[simp] theorem emit_rh : (s.emit e).rh = s.rh := rfl
@[simp] theorem emit_op : (s.emit e).op = s.op := rfl
@[simp] theorem emit_seq : (s.emit e).seq = s.seq := rfl
@[simp] theorem emit_err : (s.emit e).err = s.err := rfl
@[simp] theorem emit_done : (s.emit e).done = s.done := rfl
@[simp] theorem emit_lastBusy : (s.emit e).lastBusy = s.lastBusy := rfl
@[simp] theorem emit_session : (s.emit e).session = s.session := rfl
@[simp] theorem emit_gpioOpen : (s.emit e).gpioOpen = s.gpioOpen := rfl
@[simp] theorem emit_spiOpen : (s.emit e).spiOpen = s.spiOpen := rfl
@[simp] theorem emit_rstL : (s.emit e).rstL = s.rstL := rfl
@[simp] theorem emit_dcL : (s.emit e).dcL = s.dcL := rfl
@[simp] theorem emit_csL : (s.emit e).csL = s.csL := rfl
@[simp] theorem emit_plane0 : (s.emit e).plane0 = s.plane0 := rfl
@[simp] theorem emit_plane1 : (s.emit e).plane1 = s.plane1 := rfl
@[simp] theorem emit_dbuf : (s.emit e).dbuf = s.dbuf := rfl
@[simp] theorem emit_trace : (s.emit e).trace = s.trace ++ [e] := rfl
@[simp] theorem emit_raster : (s.emit e).raster = s.raster := rfl
@[simp] theorem emit_host : (s.emit e).host = s.host := rfl
@[simp] theorem emit_xferIn : (s.emit e).xferIn = s.xferIn := rfl
@[simp] theorem emit_xferDrawn : (s.emit e).xferDrawn = s.xferDrawn := rfl
@[simp] theorem emit_busyIn : (s.emit e).busyIn = s.busyIn := rfl
@[simp] theorem emit_busyDrawn : (s.emit e).busyDrawn = s.busyDrawn := rfl
@[simp] theorem emit_rstIn : (s.emit e).rstIn = s.rstIn := rfl
@[simp] theorem emit_epoch : (s.emit e).epoch = s.epoch := rfl
@[simp] theorem emit_draws : (s.emit e).draws = s.draws := rfl
end

section
variable (o : BitVec 4) (c : BitVec 2) (s : State)
@[simp] theorem ret_arg : (s.ret o c).arg = s.arg := rfl
@[simp] theorem ret_len0 : (s.ret o c).len0 = s.len0 := rfl
@[simp] theorem ret_len1 : (s.ret o c).len1 = s.len1 := rfl
@[simp] theorem ret_dlen : (s.ret o c).dlen = s.dlen := rfl
@[simp] theorem ret_rw : (s.ret o c).rw = s.rw := rfl
@[simp] theorem ret_rh : (s.ret o c).rh = s.rh := rfl
@[simp] theorem ret_op : (s.ret o c).op = s.op := rfl
@[simp] theorem ret_seq : (s.ret o c).seq = s.seq := rfl
@[simp] theorem ret_err : (s.ret o c).err = c := rfl
@[simp] theorem ret_done : (s.ret o c).done = true := rfl
@[simp] theorem ret_lastBusy : (s.ret o c).lastBusy = s.lastBusy := rfl
@[simp] theorem ret_session : (s.ret o c).session = s.session := rfl
@[simp] theorem ret_gpioOpen : (s.ret o c).gpioOpen = s.gpioOpen := rfl
@[simp] theorem ret_spiOpen : (s.ret o c).spiOpen = s.spiOpen := rfl
@[simp] theorem ret_rstL : (s.ret o c).rstL = s.rstL := rfl
@[simp] theorem ret_dcL : (s.ret o c).dcL = s.dcL := rfl
@[simp] theorem ret_csL : (s.ret o c).csL = s.csL := rfl
@[simp] theorem ret_plane0 : (s.ret o c).plane0 = s.plane0 := rfl
@[simp] theorem ret_plane1 : (s.ret o c).plane1 = s.plane1 := rfl
@[simp] theorem ret_dbuf : (s.ret o c).dbuf = s.dbuf := rfl
@[simp] theorem ret_trace : (s.ret o c).trace = s.trace ++ [.ret o c] := rfl
@[simp] theorem ret_raster : (s.ret o c).raster = s.raster := rfl
@[simp] theorem ret_host : (s.ret o c).host = s.host := rfl
@[simp] theorem ret_xferIn : (s.ret o c).xferIn = s.xferIn := rfl
@[simp] theorem ret_xferDrawn : (s.ret o c).xferDrawn = s.xferDrawn := rfl
@[simp] theorem ret_busyIn : (s.ret o c).busyIn = s.busyIn := rfl
@[simp] theorem ret_busyDrawn : (s.ret o c).busyDrawn = s.busyDrawn := rfl
@[simp] theorem ret_rstIn : (s.ret o c).rstIn = s.rstIn := rfl
@[simp] theorem ret_epoch : (s.ret o c).epoch = s.epoch := rfl
@[simp] theorem ret_draws : (s.ret o c).draws = s.draws := rfl
end

section
variable (v : Level) (s : State)
@[simp] theorem sampled_arg : (s.sampled v).arg = s.arg := rfl
@[simp] theorem sampled_len0 : (s.sampled v).len0 = s.len0 := rfl
@[simp] theorem sampled_len1 : (s.sampled v).len1 = s.len1 := rfl
@[simp] theorem sampled_dlen : (s.sampled v).dlen = s.dlen := rfl
@[simp] theorem sampled_rw : (s.sampled v).rw = s.rw := rfl
@[simp] theorem sampled_rh : (s.sampled v).rh = s.rh := rfl
@[simp] theorem sampled_op : (s.sampled v).op = s.op := rfl
@[simp] theorem sampled_seq : (s.sampled v).seq = s.seq := rfl
@[simp] theorem sampled_err : (s.sampled v).err = s.err := rfl
@[simp] theorem sampled_done : (s.sampled v).done = s.done := rfl
@[simp] theorem sampled_lastBusy : (s.sampled v).lastBusy = v := rfl
@[simp] theorem sampled_session : (s.sampled v).session = s.session := rfl
@[simp] theorem sampled_gpioOpen : (s.sampled v).gpioOpen = s.gpioOpen := rfl
@[simp] theorem sampled_spiOpen : (s.sampled v).spiOpen = s.spiOpen := rfl
@[simp] theorem sampled_rstL : (s.sampled v).rstL = s.rstL := rfl
@[simp] theorem sampled_dcL : (s.sampled v).dcL = s.dcL := rfl
@[simp] theorem sampled_csL : (s.sampled v).csL = s.csL := rfl
@[simp] theorem sampled_plane0 : (s.sampled v).plane0 = s.plane0 := rfl
@[simp] theorem sampled_plane1 : (s.sampled v).plane1 = s.plane1 := rfl
@[simp] theorem sampled_dbuf : (s.sampled v).dbuf = s.dbuf := rfl
@[simp] theorem sampled_trace : (s.sampled v).trace = s.trace ++ [.busy v] := rfl
@[simp] theorem sampled_raster : (s.sampled v).raster = s.raster := rfl
@[simp] theorem sampled_host : (s.sampled v).host = s.host := rfl
@[simp] theorem sampled_xferIn : (s.sampled v).xferIn = s.xferIn := rfl
@[simp] theorem sampled_xferDrawn : (s.sampled v).xferDrawn = s.xferDrawn := rfl
@[simp] theorem sampled_busyIn : (s.sampled v).busyIn = s.busyIn := rfl
@[simp] theorem sampled_busyDrawn : (s.sampled v).busyDrawn = s.busyDrawn := rfl
@[simp] theorem sampled_rstIn : (s.sampled v).rstIn = s.rstIn := rfl
@[simp] theorem sampled_epoch : (s.sampled v).epoch = s.epoch := rfl
@[simp] theorem sampled_draws : (s.sampled v).draws = s.draws := rfl
end

section
variable (s : State)
@[simp] theorem tick_arg : s.tick.arg = s.arg := rfl
@[simp] theorem tick_len0 : s.tick.len0 = s.len0 := rfl
@[simp] theorem tick_len1 : s.tick.len1 = s.len1 := rfl
@[simp] theorem tick_dlen : s.tick.dlen = s.dlen := rfl
@[simp] theorem tick_rw : s.tick.rw = s.rw := rfl
@[simp] theorem tick_rh : s.tick.rh = s.rh := rfl
@[simp] theorem tick_op : s.tick.op = s.op := rfl
@[simp] theorem tick_seq : s.tick.seq = s.seq := rfl
@[simp] theorem tick_err : s.tick.err = s.err := rfl
@[simp] theorem tick_done : s.tick.done = false := rfl
@[simp] theorem tick_lastBusy : s.tick.lastBusy = s.lastBusy := rfl
@[simp] theorem tick_session : s.tick.session = s.session := rfl
@[simp] theorem tick_gpioOpen : s.tick.gpioOpen = s.gpioOpen := rfl
@[simp] theorem tick_spiOpen : s.tick.spiOpen = s.spiOpen := rfl
@[simp] theorem tick_rstL : s.tick.rstL = s.rstL := rfl
@[simp] theorem tick_dcL : s.tick.dcL = s.dcL := rfl
@[simp] theorem tick_csL : s.tick.csL = s.csL := rfl
@[simp] theorem tick_plane0 : s.tick.plane0 = s.plane0 := rfl
@[simp] theorem tick_plane1 : s.tick.plane1 = s.plane1 := rfl
@[simp] theorem tick_dbuf : s.tick.dbuf = s.dbuf := rfl
@[simp] theorem tick_trace : s.tick.trace = s.trace := rfl
@[simp] theorem tick_raster : s.tick.raster = s.raster := rfl
@[simp] theorem tick_host : s.tick.host = s.host := rfl
@[simp] theorem tick_xferIn : s.tick.xferIn = s.xferIn := rfl
@[simp] theorem tick_xferDrawn : s.tick.xferDrawn = s.xferDrawn := rfl
@[simp] theorem tick_busyIn : s.tick.busyIn = s.busyIn := rfl
@[simp] theorem tick_busyDrawn : s.tick.busyDrawn = s.busyDrawn := rfl
@[simp] theorem tick_rstIn : s.tick.rstIn = s.rstIn.tail := rfl
@[simp] theorem tick_epoch : s.tick.epoch = s.epoch := rfl
@[simp] theorem tick_draws : s.tick.draws = s.draws := rfl
end

section
variable (s : State)
@[simp] theorem popXfer_arg : s.popXfer.arg = s.arg := rfl
@[simp] theorem popXfer_len0 : s.popXfer.len0 = s.len0 := rfl
@[simp] theorem popXfer_len1 : s.popXfer.len1 = s.len1 := rfl
@[simp] theorem popXfer_dlen : s.popXfer.dlen = s.dlen := rfl
@[simp] theorem popXfer_rw : s.popXfer.rw = s.rw := rfl
@[simp] theorem popXfer_rh : s.popXfer.rh = s.rh := rfl
@[simp] theorem popXfer_op : s.popXfer.op = s.op := rfl
@[simp] theorem popXfer_seq : s.popXfer.seq = s.seq := rfl
@[simp] theorem popXfer_err : s.popXfer.err = s.err := rfl
@[simp] theorem popXfer_done : s.popXfer.done = s.done := rfl
@[simp] theorem popXfer_lastBusy : s.popXfer.lastBusy = s.lastBusy := rfl
@[simp] theorem popXfer_session : s.popXfer.session = s.session := rfl
@[simp] theorem popXfer_gpioOpen : s.popXfer.gpioOpen = s.gpioOpen := rfl
@[simp] theorem popXfer_spiOpen : s.popXfer.spiOpen = s.spiOpen := rfl
@[simp] theorem popXfer_rstL : s.popXfer.rstL = s.rstL := rfl
@[simp] theorem popXfer_dcL : s.popXfer.dcL = s.dcL := rfl
@[simp] theorem popXfer_csL : s.popXfer.csL = s.csL := rfl
@[simp] theorem popXfer_plane0 : s.popXfer.plane0 = s.plane0 := rfl
@[simp] theorem popXfer_plane1 : s.popXfer.plane1 = s.plane1 := rfl
@[simp] theorem popXfer_dbuf : s.popXfer.dbuf = s.dbuf := rfl
@[simp] theorem popXfer_trace : s.popXfer.trace = s.trace := rfl
@[simp] theorem popXfer_raster : s.popXfer.raster = s.raster := rfl
@[simp] theorem popXfer_host : s.popXfer.host = s.host := rfl
@[simp] theorem popXfer_xferIn : s.popXfer.xferIn = s.xferIn.tail := rfl
@[simp] theorem popXfer_xferDrawn : s.popXfer.xferDrawn = s.xferDrawn + 1 := rfl
@[simp] theorem popXfer_busyIn : s.popXfer.busyIn = s.busyIn := rfl
@[simp] theorem popXfer_busyDrawn : s.popXfer.busyDrawn = s.busyDrawn := rfl
@[simp] theorem popXfer_rstIn : s.popXfer.rstIn = s.rstIn := rfl
@[simp] theorem popXfer_epoch : s.popXfer.epoch = s.epoch := rfl
@[simp] theorem popXfer_draws : s.popXfer.draws = s.draws := rfl
end

section
variable (s : State)
@[simp] theorem popBusy_arg : s.popBusy.arg = s.arg := rfl
@[simp] theorem popBusy_len0 : s.popBusy.len0 = s.len0 := rfl
@[simp] theorem popBusy_len1 : s.popBusy.len1 = s.len1 := rfl
@[simp] theorem popBusy_dlen : s.popBusy.dlen = s.dlen := rfl
@[simp] theorem popBusy_rw : s.popBusy.rw = s.rw := rfl
@[simp] theorem popBusy_rh : s.popBusy.rh = s.rh := rfl
@[simp] theorem popBusy_op : s.popBusy.op = s.op := rfl
@[simp] theorem popBusy_seq : s.popBusy.seq = s.seq := rfl
@[simp] theorem popBusy_err : s.popBusy.err = s.err := rfl
@[simp] theorem popBusy_done : s.popBusy.done = s.done := rfl
@[simp] theorem popBusy_lastBusy : s.popBusy.lastBusy = s.lastBusy := rfl
@[simp] theorem popBusy_session : s.popBusy.session = s.session := rfl
@[simp] theorem popBusy_gpioOpen : s.popBusy.gpioOpen = s.gpioOpen := rfl
@[simp] theorem popBusy_spiOpen : s.popBusy.spiOpen = s.spiOpen := rfl
@[simp] theorem popBusy_rstL : s.popBusy.rstL = s.rstL := rfl
@[simp] theorem popBusy_dcL : s.popBusy.dcL = s.dcL := rfl
@[simp] theorem popBusy_csL : s.popBusy.csL = s.csL := rfl
@[simp] theorem popBusy_plane0 : s.popBusy.plane0 = s.plane0 := rfl
@[simp] theorem popBusy_plane1 : s.popBusy.plane1 = s.plane1 := rfl
@[simp] theorem popBusy_dbuf : s.popBusy.dbuf = s.dbuf := rfl
@[simp] theorem popBusy_trace : s.popBusy.trace = s.trace := rfl
@[simp] theorem popBusy_raster : s.popBusy.raster = s.raster := rfl
@[simp] theorem popBusy_host : s.popBusy.host = s.host := rfl
@[simp] theorem popBusy_xferIn : s.popBusy.xferIn = s.xferIn := rfl
@[simp] theorem popBusy_xferDrawn : s.popBusy.xferDrawn = s.xferDrawn := rfl
@[simp] theorem popBusy_busyIn : s.popBusy.busyIn = s.busyIn.tail := rfl
@[simp] theorem popBusy_busyDrawn : s.popBusy.busyDrawn = s.busyDrawn + 1 := rfl
@[simp] theorem popBusy_rstIn : s.popBusy.rstIn = s.rstIn := rfl
@[simp] theorem popBusy_epoch : s.popBusy.epoch = s.epoch := rfl
@[simp] theorem popBusy_draws : s.popBusy.draws = s.draws := rfl
end

section
variable (s : State)
@[simp] theorem nextPhase_arg : s.nextPhase.arg = s.arg := rfl
@[simp] theorem nextPhase_len0 : s.nextPhase.len0 = s.len0 := rfl
@[simp] theorem nextPhase_len1 : s.nextPhase.len1 = s.len1 := rfl
@[simp] theorem nextPhase_dlen : s.nextPhase.dlen = s.dlen := rfl
@[simp] theorem nextPhase_rw : s.nextPhase.rw = s.rw := rfl
@[simp] theorem nextPhase_rh : s.nextPhase.rh = s.rh := rfl
@[simp] theorem nextPhase_op : s.nextPhase.op = s.op := rfl
@[simp] theorem nextPhase_seq : s.nextPhase.seq = { s.seq with ph := s.seq.ph + 1#6, sub := 0#2, idx := 0#16 } := rfl
@[simp] theorem nextPhase_err : s.nextPhase.err = s.err := rfl
@[simp] theorem nextPhase_done : s.nextPhase.done = s.done := rfl
@[simp] theorem nextPhase_lastBusy : s.nextPhase.lastBusy = s.lastBusy := rfl
@[simp] theorem nextPhase_session : s.nextPhase.session = s.session := rfl
@[simp] theorem nextPhase_gpioOpen : s.nextPhase.gpioOpen = s.gpioOpen := rfl
@[simp] theorem nextPhase_spiOpen : s.nextPhase.spiOpen = s.spiOpen := rfl
@[simp] theorem nextPhase_rstL : s.nextPhase.rstL = s.rstL := rfl
@[simp] theorem nextPhase_dcL : s.nextPhase.dcL = s.dcL := rfl
@[simp] theorem nextPhase_csL : s.nextPhase.csL = s.csL := rfl
@[simp] theorem nextPhase_plane0 : s.nextPhase.plane0 = s.plane0 := rfl
@[simp] theorem nextPhase_plane1 : s.nextPhase.plane1 = s.plane1 := rfl
@[simp] theorem nextPhase_dbuf : s.nextPhase.dbuf = s.dbuf := rfl
@[simp] theorem nextPhase_trace : s.nextPhase.trace = s.trace := rfl
@[simp] theorem nextPhase_raster : s.nextPhase.raster = s.raster := rfl
@[simp] theorem nextPhase_host : s.nextPhase.host = s.host := rfl
@[simp] theorem nextPhase_xferIn : s.nextPhase.xferIn = s.xferIn := rfl
@[simp] theorem nextPhase_xferDrawn : s.nextPhase.xferDrawn = s.xferDrawn := rfl
@[simp] theorem nextPhase_busyIn : s.nextPhase.busyIn = s.busyIn := rfl
@[simp] theorem nextPhase_busyDrawn : s.nextPhase.busyDrawn = s.busyDrawn := rfl
@[simp] theorem nextPhase_rstIn : s.nextPhase.rstIn = s.rstIn := rfl
@[simp] theorem nextPhase_epoch : s.nextPhase.epoch = s.epoch := rfl
@[simp] theorem nextPhase_draws : s.nextPhase.draws = s.draws := rfl
end

section
variable (q : SeqRegs) (s : State)
@[simp] theorem withSeq_arg : (s.withSeq q).arg = s.arg := rfl
@[simp] theorem withSeq_len0 : (s.withSeq q).len0 = s.len0 := rfl
@[simp] theorem withSeq_len1 : (s.withSeq q).len1 = s.len1 := rfl
@[simp] theorem withSeq_dlen : (s.withSeq q).dlen = s.dlen := rfl
@[simp] theorem withSeq_rw : (s.withSeq q).rw = s.rw := rfl
@[simp] theorem withSeq_rh : (s.withSeq q).rh = s.rh := rfl
@[simp] theorem withSeq_op : (s.withSeq q).op = s.op := rfl
@[simp] theorem withSeq_seq : (s.withSeq q).seq = q := rfl
@[simp] theorem withSeq_err : (s.withSeq q).err = s.err := rfl
@[simp] theorem withSeq_done : (s.withSeq q).done = s.done := rfl
@[simp] theorem withSeq_lastBusy : (s.withSeq q).lastBusy = s.lastBusy := rfl
@[simp] theorem withSeq_session : (s.withSeq q).session = s.session := rfl
@[simp] theorem withSeq_gpioOpen : (s.withSeq q).gpioOpen = s.gpioOpen := rfl
@[simp] theorem withSeq_spiOpen : (s.withSeq q).spiOpen = s.spiOpen := rfl
@[simp] theorem withSeq_rstL : (s.withSeq q).rstL = s.rstL := rfl
@[simp] theorem withSeq_dcL : (s.withSeq q).dcL = s.dcL := rfl
@[simp] theorem withSeq_csL : (s.withSeq q).csL = s.csL := rfl
@[simp] theorem withSeq_plane0 : (s.withSeq q).plane0 = s.plane0 := rfl
@[simp] theorem withSeq_plane1 : (s.withSeq q).plane1 = s.plane1 := rfl
@[simp] theorem withSeq_dbuf : (s.withSeq q).dbuf = s.dbuf := rfl
@[simp] theorem withSeq_trace : (s.withSeq q).trace = s.trace := rfl
@[simp] theorem withSeq_raster : (s.withSeq q).raster = s.raster := rfl
@[simp] theorem withSeq_host : (s.withSeq q).host = s.host := rfl
@[simp] theorem withSeq_xferIn : (s.withSeq q).xferIn = s.xferIn := rfl
@[simp] theorem withSeq_xferDrawn : (s.withSeq q).xferDrawn = s.xferDrawn := rfl
@[simp] theorem withSeq_busyIn : (s.withSeq q).busyIn = s.busyIn := rfl
@[simp] theorem withSeq_busyDrawn : (s.withSeq q).busyDrawn = s.busyDrawn := rfl
@[simp] theorem withSeq_rstIn : (s.withSeq q).rstIn = s.rstIn := rfl
@[simp] theorem withSeq_epoch : (s.withSeq q).epoch = s.epoch := rfl
@[simp] theorem withSeq_draws : (s.withSeq q).draws = s.draws := rfl
end

section
variable (v : BitVec 2) (s : State)
@[simp] theorem withSub_arg : (s.withSub v).arg = s.arg := rfl
@[simp] theorem withSub_len0 : (s.withSub v).len0 = s.len0 := rfl
@[simp] theorem withSub_len1 : (s.withSub v).len1 = s.len1 := rfl
@[simp] theorem withSub_dlen : (s.withSub v).dlen = s.dlen := rfl
@[simp] theorem withSub_rw : (s.withSub v).rw = s.rw := rfl
@[simp] theorem withSub_rh : (s.withSub v).rh = s.rh := rfl
@[simp] theorem withSub_op : (s.withSub v).op = s.op := rfl
@[simp] theorem withSub_seq : (s.withSub v).seq = { s.seq with sub := v } := rfl
@[simp] theorem withSub_err : (s.withSub v).err = s.err := rfl
@[simp] theorem withSub_done : (s.withSub v).done = s.done := rfl
@[simp] theorem withSub_lastBusy : (s.withSub v).lastBusy = s.lastBusy := rfl
@[simp] theorem withSub_session : (s.withSub v).session = s.session := rfl
@[simp] theorem withSub_gpioOpen : (s.withSub v).gpioOpen = s.gpioOpen := rfl
@[simp] theorem withSub_spiOpen : (s.withSub v).spiOpen = s.spiOpen := rfl
@[simp] theorem withSub_rstL : (s.withSub v).rstL = s.rstL := rfl
@[simp] theorem withSub_dcL : (s.withSub v).dcL = s.dcL := rfl
@[simp] theorem withSub_csL : (s.withSub v).csL = s.csL := rfl
@[simp] theorem withSub_plane0 : (s.withSub v).plane0 = s.plane0 := rfl
@[simp] theorem withSub_plane1 : (s.withSub v).plane1 = s.plane1 := rfl
@[simp] theorem withSub_dbuf : (s.withSub v).dbuf = s.dbuf := rfl
@[simp] theorem withSub_trace : (s.withSub v).trace = s.trace := rfl
@[simp] theorem withSub_raster : (s.withSub v).raster = s.raster := rfl
@[simp] theorem withSub_host : (s.withSub v).host = s.host := rfl
@[simp] theorem withSub_xferIn : (s.withSub v).xferIn = s.xferIn := rfl
@[simp] theorem withSub_xferDrawn : (s.withSub v).xferDrawn = s.xferDrawn := rfl
@[simp] theorem withSub_busyIn : (s.withSub v).busyIn = s.busyIn := rfl
@[simp] theorem withSub_busyDrawn : (s.withSub v).busyDrawn = s.busyDrawn := rfl
@[simp] theorem withSub_rstIn : (s.withSub v).rstIn = s.rstIn := rfl
@[simp] theorem withSub_epoch : (s.withSub v).epoch = s.epoch := rfl
@[simp] theorem withSub_draws : (s.withSub v).draws = s.draws := rfl
end

section
variable (s : State)
@[simp] theorem loopNext_arg : s.loopNext.arg = s.arg := rfl
@[simp] theorem loopNext_len0 : s.loopNext.len0 = s.len0 := rfl
@[simp] theorem loopNext_len1 : s.loopNext.len1 = s.len1 := rfl
@[simp] theorem loopNext_dlen : s.loopNext.dlen = s.dlen := rfl
@[simp] theorem loopNext_rw : s.loopNext.rw = s.rw := rfl
@[simp] theorem loopNext_rh : s.loopNext.rh = s.rh := rfl
@[simp] theorem loopNext_op : s.loopNext.op = s.op := rfl
@[simp] theorem loopNext_seq : s.loopNext.seq = { s.seq with idx := s.seq.idx + 1#16, sub := 0#2 } := rfl
@[simp] theorem loopNext_err : s.loopNext.err = s.err := rfl
@[simp] theorem loopNext_done : s.loopNext.done = s.done := rfl
@[simp] theorem loopNext_lastBusy : s.loopNext.lastBusy = s.lastBusy := rfl
@[simp] theorem loopNext_session : s.loopNext.session = s.session := rfl
@[simp] theorem loopNext_gpioOpen : s.loopNext.gpioOpen = s.gpioOpen := rfl
@[simp] theorem loopNext_spiOpen : s.loopNext.spiOpen = s.spiOpen := rfl
@[simp] theorem loopNext_rstL : s.loopNext.rstL = s.rstL := rfl
@[simp] theorem loopNext_dcL : s.loopNext.dcL = s.dcL := rfl
@[simp] theorem loopNext_csL : s.loopNext.csL = s.csL := rfl
@[simp] theorem loopNext_plane0 : s.loopNext.plane0 = s.plane0 := rfl
@[simp] theorem loopNext_plane1 : s.loopNext.plane1 = s.plane1 := rfl
@[simp] theorem loopNext_dbuf : s.loopNext.dbuf = s.dbuf := rfl
@[simp] theorem loopNext_trace : s.loopNext.trace = s.trace := rfl
@[simp] theorem loopNext_raster : s.loopNext.raster = s.raster := rfl
@[simp] theorem loopNext_host : s.loopNext.host = s.host := rfl
@[simp] theorem loopNext_xferIn : s.loopNext.xferIn = s.xferIn := rfl
@[simp] theorem loopNext_xferDrawn : s.loopNext.xferDrawn = s.xferDrawn := rfl
@[simp] theorem loopNext_busyIn : s.loopNext.busyIn = s.busyIn := rfl
@[simp] theorem loopNext_busyDrawn : s.loopNext.busyDrawn = s.busyDrawn := rfl
@[simp] theorem loopNext_rstIn : s.loopNext.rstIn = s.rstIn := rfl
@[simp] theorem loopNext_epoch : s.loopNext.epoch = s.epoch := rfl
@[simp] theorem loopNext_draws : s.loopNext.draws = s.draws := rfl
end

section
variable (s : State)
@[simp] theorem toIdle_arg : s.toIdle.arg = s.arg := rfl
@[simp] theorem toIdle_len0 : s.toIdle.len0 = s.len0 := rfl
@[simp] theorem toIdle_len1 : s.toIdle.len1 = s.len1 := rfl
@[simp] theorem toIdle_dlen : s.toIdle.dlen = s.dlen := rfl
@[simp] theorem toIdle_rw : s.toIdle.rw = s.rw := rfl
@[simp] theorem toIdle_rh : s.toIdle.rh = s.rh := rfl
@[simp] theorem toIdle_op : s.toIdle.op = .idle := rfl
@[simp] theorem toIdle_seq : s.toIdle.seq = SeqRegs.free s.draws := rfl
@[simp] theorem toIdle_err : s.toIdle.err = s.err := rfl
@[simp] theorem toIdle_done : s.toIdle.done = s.done := rfl
@[simp] theorem toIdle_lastBusy : s.toIdle.lastBusy = s.lastBusy := rfl
@[simp] theorem toIdle_session : s.toIdle.session = s.session := rfl
@[simp] theorem toIdle_gpioOpen : s.toIdle.gpioOpen = s.gpioOpen := rfl
@[simp] theorem toIdle_spiOpen : s.toIdle.spiOpen = s.spiOpen := rfl
@[simp] theorem toIdle_rstL : s.toIdle.rstL = s.rstL := rfl
@[simp] theorem toIdle_dcL : s.toIdle.dcL = s.dcL := rfl
@[simp] theorem toIdle_csL : s.toIdle.csL = s.csL := rfl
@[simp] theorem toIdle_plane0 : s.toIdle.plane0 = s.plane0 := rfl
@[simp] theorem toIdle_plane1 : s.toIdle.plane1 = s.plane1 := rfl
@[simp] theorem toIdle_dbuf : s.toIdle.dbuf = s.dbuf := rfl
@[simp] theorem toIdle_trace : s.toIdle.trace = s.trace := rfl
@[simp] theorem toIdle_raster : s.toIdle.raster = s.raster := rfl
@[simp] theorem toIdle_host : s.toIdle.host = s.host := rfl
@[simp] theorem toIdle_xferIn : s.toIdle.xferIn = s.xferIn := rfl
@[simp] theorem toIdle_xferDrawn : s.toIdle.xferDrawn = s.xferDrawn := rfl
@[simp] theorem toIdle_busyIn : s.toIdle.busyIn = s.busyIn := rfl
@[simp] theorem toIdle_busyDrawn : s.toIdle.busyDrawn = s.busyDrawn := rfl
@[simp] theorem toIdle_rstIn : s.toIdle.rstIn = s.rstIn := rfl
@[simp] theorem toIdle_epoch : s.toIdle.epoch = s.epoch := rfl
@[simp] theorem toIdle_draws : s.toIdle.draws = s.draws + 1 := rfl
end

section
variable (o : BitVec 4) (x : Exc) (s : State)
@[simp] theorem raise_arg : (s.raise o x).arg = s.arg := rfl
@[simp] theorem raise_len0 : (s.raise o x).len0 = s.len0 := rfl
@[simp] theorem raise_len1 : (s.raise o x).len1 = s.len1 := rfl
@[simp] theorem raise_dlen : (s.raise o x).dlen = s.dlen := rfl
@[simp] theorem raise_rw : (s.raise o x).rw = s.rw := rfl
@[simp] theorem raise_rh : (s.raise o x).rh = s.rh := rfl
@[simp] theorem raise_op : (s.raise o x).op = .idle := rfl
@[simp] theorem raise_seq : (s.raise o x).seq = SeqRegs.free s.draws := rfl
@[simp] theorem raise_err : (s.raise o x).err = x.code := rfl
@[simp] theorem raise_done : (s.raise o x).done = true := rfl
@[simp] theorem raise_lastBusy : (s.raise o x).lastBusy = s.lastBusy := rfl
@[simp] theorem raise_session : (s.raise o x).session = s.session := rfl
@[simp] theorem raise_gpioOpen : (s.raise o x).gpioOpen = s.gpioOpen := rfl
@[simp] theorem raise_spiOpen : (s.raise o x).spiOpen = s.spiOpen := rfl
@[simp] theorem raise_rstL : (s.raise o x).rstL = s.rstL := rfl
@[simp] theorem raise_dcL : (s.raise o x).dcL = s.dcL := rfl
@[simp] theorem raise_csL : (s.raise o x).csL = s.csL := rfl
@[simp] theorem raise_plane0 : (s.raise o x).plane0 = s.plane0 := rfl
@[simp] theorem raise_plane1 : (s.raise o x).plane1 = s.plane1 := rfl
@[simp] theorem raise_dbuf : (s.raise o x).dbuf = s.dbuf := rfl
@[simp] theorem raise_trace : (s.raise o x).trace = s.trace ++ [.ret o x.code] := rfl
@[simp] theorem raise_raster : (s.raise o x).raster = s.raster := rfl
@[simp] theorem raise_host : (s.raise o x).host = s.host := rfl
@[simp] theorem raise_xferIn : (s.raise o x).xferIn = s.xferIn := rfl
@[simp] theorem raise_xferDrawn : (s.raise o x).xferDrawn = s.xferDrawn := rfl
@[simp] theorem raise_busyIn : (s.raise o x).busyIn = s.busyIn := rfl
@[simp] theorem raise_busyDrawn : (s.raise o x).busyDrawn = s.busyDrawn := rfl
@[simp] theorem raise_rstIn : (s.raise o x).rstIn = s.rstIn := rfl
@[simp] theorem raise_epoch : (s.raise o x).epoch = s.epoch := rfl
@[simp] theorem raise_draws : (s.raise o x).draws = s.draws + 1 := rfl
end

section
variable (s : State)
@[simp] theorem finish_arg : s.finish.arg = s.arg := rfl
@[simp] theorem finish_len0 : s.finish.len0 = s.len0 := rfl
@[simp] theorem finish_len1 : s.finish.len1 = s.len1 := rfl
@[simp] theorem finish_dlen : s.finish.dlen = s.dlen := rfl
@[simp] theorem finish_rw : s.finish.rw = s.rw := rfl
@[simp] theorem finish_rh : s.finish.rh = s.rh := rfl
@[simp] theorem finish_op : s.finish.op = .idle := rfl
@[simp] theorem finish_seq : s.finish.seq = SeqRegs.free s.draws := rfl
@[simp] theorem finish_err : s.finish.err = 0#2 := rfl
@[simp] theorem finish_done : s.finish.done = true := rfl
@[simp] theorem finish_lastBusy : s.finish.lastBusy = s.lastBusy := rfl
@[simp] theorem finish_session : s.finish.session = s.session := rfl
@[simp] theorem finish_gpioOpen : s.finish.gpioOpen = s.gpioOpen := rfl
@[simp] theorem finish_spiOpen : s.finish.spiOpen = s.spiOpen := rfl
@[simp] theorem finish_rstL : s.finish.rstL = s.rstL := rfl
@[simp] theorem finish_dcL : s.finish.dcL = s.dcL := rfl
@[simp] theorem finish_csL : s.finish.csL = s.csL := rfl
@[simp] theorem finish_plane0 : s.finish.plane0 = s.plane0 := rfl
@[simp] theorem finish_plane1 : s.finish.plane1 = s.plane1 := rfl
@[simp] theorem finish_dbuf : s.finish.dbuf = s.dbuf := rfl
@[simp] theorem finish_trace : s.finish.trace = s.trace ++ [.ret s.op.code 0#2] := rfl
@[simp] theorem finish_raster : s.finish.raster = s.raster := rfl
@[simp] theorem finish_host : s.finish.host = s.host := rfl
@[simp] theorem finish_xferIn : s.finish.xferIn = s.xferIn := rfl
@[simp] theorem finish_xferDrawn : s.finish.xferDrawn = s.xferDrawn := rfl
@[simp] theorem finish_busyIn : s.finish.busyIn = s.busyIn := rfl
@[simp] theorem finish_busyDrawn : s.finish.busyDrawn = s.busyDrawn := rfl
@[simp] theorem finish_rstIn : s.finish.rstIn = s.rstIn := rfl
@[simp] theorem finish_epoch : s.finish.epoch = s.epoch := rfl
@[simp] theorem finish_draws : s.finish.draws = s.draws + 1 := rfl
end

section
variable (v : Byte) (s : State)
@[simp] theorem withArg_arg : (s.withArg v).arg = v := rfl
@[simp] theorem withArg_len0 : (s.withArg v).len0 = s.len0 := rfl
@[simp] theorem withArg_len1 : (s.withArg v).len1 = s.len1 := rfl
@[simp] theorem withArg_dlen : (s.withArg v).dlen = s.dlen := rfl
@[simp] theorem withArg_rw : (s.withArg v).rw = s.rw := rfl
@[simp] theorem withArg_rh : (s.withArg v).rh = s.rh := rfl
@[simp] theorem withArg_op : (s.withArg v).op = s.op := rfl
@[simp] theorem withArg_seq : (s.withArg v).seq = s.seq := rfl
@[simp] theorem withArg_err : (s.withArg v).err = s.err := rfl
@[simp] theorem withArg_done : (s.withArg v).done = s.done := rfl
@[simp] theorem withArg_lastBusy : (s.withArg v).lastBusy = s.lastBusy := rfl
@[simp] theorem withArg_session : (s.withArg v).session = s.session := rfl
@[simp] theorem withArg_gpioOpen : (s.withArg v).gpioOpen = s.gpioOpen := rfl
@[simp] theorem withArg_spiOpen : (s.withArg v).spiOpen = s.spiOpen := rfl
@[simp] theorem withArg_rstL : (s.withArg v).rstL = s.rstL := rfl
@[simp] theorem withArg_dcL : (s.withArg v).dcL = s.dcL := rfl
@[simp] theorem withArg_csL : (s.withArg v).csL = s.csL := rfl
@[simp] theorem withArg_plane0 : (s.withArg v).plane0 = s.plane0 := rfl
@[simp] theorem withArg_plane1 : (s.withArg v).plane1 = s.plane1 := rfl
@[simp] theorem withArg_dbuf : (s.withArg v).dbuf = s.dbuf := rfl
@[simp] theorem withArg_trace : (s.withArg v).trace = s.trace := rfl
@[simp] theorem withArg_raster : (s.withArg v).raster = s.raster := rfl
@[simp] theorem withArg_host : (s.withArg v).host = s.host := rfl
@[simp] theorem withArg_xferIn : (s.withArg v).xferIn = s.xferIn := rfl
@[simp] theorem withArg_xferDrawn : (s.withArg v).xferDrawn = s.xferDrawn := rfl
@[simp] theorem withArg_busyIn : (s.withArg v).busyIn = s.busyIn := rfl
@[simp] theorem withArg_busyDrawn : (s.withArg v).busyDrawn = s.busyDrawn := rfl
@[simp] theorem withArg_rstIn : (s.withArg v).rstIn = s.rstIn := rfl
@[simp] theorem withArg_epoch : (s.withArg v).epoch = s.epoch := rfl
@[simp] theorem withArg_draws : (s.withArg v).draws = s.draws := rfl
end

section
variable (v : Session) (s : State)
@[simp] theorem withSession_arg : (s.withSession v).arg = s.arg := rfl
@[simp] theorem withSession_len0 : (s.withSession v).len0 = s.len0 := rfl
@[simp] theorem withSession_len1 : (s.withSession v).len1 = s.len1 := rfl
@[simp] theorem withSession_dlen : (s.withSession v).dlen = s.dlen := rfl
@[simp] theorem withSession_rw : (s.withSession v).rw = s.rw := rfl
@[simp] theorem withSession_rh : (s.withSession v).rh = s.rh := rfl
@[simp] theorem withSession_op : (s.withSession v).op = s.op := rfl
@[simp] theorem withSession_seq : (s.withSession v).seq = s.seq := rfl
@[simp] theorem withSession_err : (s.withSession v).err = s.err := rfl
@[simp] theorem withSession_done : (s.withSession v).done = s.done := rfl
@[simp] theorem withSession_lastBusy : (s.withSession v).lastBusy = s.lastBusy := rfl
@[simp] theorem withSession_session : (s.withSession v).session = v := rfl
@[simp] theorem withSession_gpioOpen : (s.withSession v).gpioOpen = s.gpioOpen := rfl
@[simp] theorem withSession_spiOpen : (s.withSession v).spiOpen = s.spiOpen := rfl
@[simp] theorem withSession_rstL : (s.withSession v).rstL = s.rstL := rfl
@[simp] theorem withSession_dcL : (s.withSession v).dcL = s.dcL := rfl
@[simp] theorem withSession_csL : (s.withSession v).csL = s.csL := rfl
@[simp] theorem withSession_plane0 : (s.withSession v).plane0 = s.plane0 := rfl
@[simp] theorem withSession_plane1 : (s.withSession v).plane1 = s.plane1 := rfl
@[simp] theorem withSession_dbuf : (s.withSession v).dbuf = s.dbuf := rfl
@[simp] theorem withSession_trace : (s.withSession v).trace = s.trace := rfl
@[simp] theorem withSession_raster : (s.withSession v).raster = s.raster := rfl
@[simp] theorem withSession_host : (s.withSession v).host = s.host := rfl
@[simp] theorem withSession_xferIn : (s.withSession v).xferIn = s.xferIn := rfl
@[simp] theorem withSession_xferDrawn : (s.withSession v).xferDrawn = s.xferDrawn := rfl
@[simp] theorem withSession_busyIn : (s.withSession v).busyIn = s.busyIn := rfl
@[simp] theorem withSession_busyDrawn : (s.withSession v).busyDrawn = s.busyDrawn := rfl
@[simp] theorem withSession_rstIn : (s.withSession v).rstIn = s.rstIn := rfl
@[simp] theorem withSession_epoch : (s.withSession v).epoch = s.epoch := rfl
@[simp] theorem withSession_draws : (s.withSession v).draws = s.draws := rfl
end

section
variable (v : Bool) (s : State)
@[simp] theorem withGpio_arg : (s.withGpio v).arg = s.arg := rfl
@[simp] theorem withGpio_len0 : (s.withGpio v).len0 = s.len0 := rfl
@[simp] theorem withGpio_len1 : (s.withGpio v).len1 = s.len1 := rfl
@[simp] theorem withGpio_dlen : (s.withGpio v).dlen = s.dlen := rfl
@[simp] theorem withGpio_rw : (s.withGpio v).rw = s.rw := rfl
@[simp] theorem withGpio_rh : (s.withGpio v).rh = s.rh := rfl
@[simp] theorem withGpio_op : (s.withGpio v).op = s.op := rfl
@[simp] theorem withGpio_seq : (s.withGpio v).seq = s.seq := rfl
@[simp] theorem withGpio_err : (s.withGpio v).err = s.err := rfl
@[simp] theorem withGpio_done : (s.withGpio v).done = s.done := rfl
@[simp] theorem withGpio_lastBusy : (s.withGpio v).lastBusy = s.lastBusy := rfl
@[simp] theorem withGpio_session : (s.withGpio v).session = s.session := rfl
@[simp] theorem withGpio_gpioOpen : (s.withGpio v).gpioOpen = v := rfl
@[simp] theorem withGpio_spiOpen : (s.withGpio v).spiOpen = s.spiOpen := rfl
@[simp] theorem withGpio_rstL : (s.withGpio v).rstL = s.rstL := rfl
@[simp] theorem withGpio_dcL : (s.withGpio v).dcL = s.dcL := rfl
@[simp] theorem withGpio_csL : (s.withGpio v).csL = s.csL := rfl
@[simp] theorem withGpio_plane0 : (s.withGpio v).plane0 = s.plane0 := rfl
@[simp] theorem withGpio_plane1 : (s.withGpio v).plane1 = s.plane1 := rfl
@[simp] theorem withGpio_dbuf : (s.withGpio v).dbuf = s.dbuf := rfl
@[simp] theorem withGpio_trace : (s.withGpio v).trace = s.trace := rfl
@[simp] theorem withGpio_raster : (s.withGpio v).raster = s.raster := rfl
@[simp] theorem withGpio_host : (s.withGpio v).host = s.host := rfl
@[simp] theorem withGpio_xferIn : (s.withGpio v).xferIn = s.xferIn := rfl
@[simp] theorem withGpio_xferDrawn : (s.withGpio v).xferDrawn = s.xferDrawn := rfl
@[simp] theorem withGpio_busyIn : (s.withGpio v).busyIn = s.busyIn := rfl
@[simp] theorem withGpio_busyDrawn : (s.withGpio v).busyDrawn = s.busyDrawn := rfl
@[simp] theorem withGpio_rstIn : (s.withGpio v).rstIn = s.rstIn := rfl
@[simp] theorem withGpio_epoch : (s.withGpio v).epoch = s.epoch := rfl
@[simp] theorem withGpio_draws : (s.withGpio v).draws = s.draws := rfl
end

section
variable (v : Bool) (s : State)
@[simp] theorem withSpi_arg : (s.withSpi v).arg = s.arg := rfl
@[simp] theorem withSpi_len0 : (s.withSpi v).len0 = s.len0 := rfl
@[simp] theorem withSpi_len1 : (s.withSpi v).len1 = s.len1 := rfl
@[simp] theorem withSpi_dlen : (s.withSpi v).dlen = s.dlen := rfl
@[simp] theorem withSpi_rw : (s.withSpi v).rw = s.rw := rfl
@[simp] theorem withSpi_rh : (s.withSpi v).rh = s.rh := rfl
@[simp] theorem withSpi_op : (s.withSpi v).op = s.op := rfl
@[simp] theorem withSpi_seq : (s.withSpi v).seq = s.seq := rfl
@[simp] theorem withSpi_err : (s.withSpi v).err = s.err := rfl
@[simp] theorem withSpi_done : (s.withSpi v).done = s.done := rfl
@[simp] theorem withSpi_lastBusy : (s.withSpi v).lastBusy = s.lastBusy := rfl
@[simp] theorem withSpi_session : (s.withSpi v).session = s.session := rfl
@[simp] theorem withSpi_gpioOpen : (s.withSpi v).gpioOpen = s.gpioOpen := rfl
@[simp] theorem withSpi_spiOpen : (s.withSpi v).spiOpen = v := rfl
@[simp] theorem withSpi_rstL : (s.withSpi v).rstL = s.rstL := rfl
@[simp] theorem withSpi_dcL : (s.withSpi v).dcL = s.dcL := rfl
@[simp] theorem withSpi_csL : (s.withSpi v).csL = s.csL := rfl
@[simp] theorem withSpi_plane0 : (s.withSpi v).plane0 = s.plane0 := rfl
@[simp] theorem withSpi_plane1 : (s.withSpi v).plane1 = s.plane1 := rfl
@[simp] theorem withSpi_dbuf : (s.withSpi v).dbuf = s.dbuf := rfl
@[simp] theorem withSpi_trace : (s.withSpi v).trace = s.trace := rfl
@[simp] theorem withSpi_raster : (s.withSpi v).raster = s.raster := rfl
@[simp] theorem withSpi_host : (s.withSpi v).host = s.host := rfl
@[simp] theorem withSpi_xferIn : (s.withSpi v).xferIn = s.xferIn := rfl
@[simp] theorem withSpi_xferDrawn : (s.withSpi v).xferDrawn = s.xferDrawn := rfl
@[simp] theorem withSpi_busyIn : (s.withSpi v).busyIn = s.busyIn := rfl
@[simp] theorem withSpi_busyDrawn : (s.withSpi v).busyDrawn = s.busyDrawn := rfl
@[simp] theorem withSpi_rstIn : (s.withSpi v).rstIn = s.rstIn := rfl
@[simp] theorem withSpi_epoch : (s.withSpi v).epoch = s.epoch := rfl
@[simp] theorem withSpi_draws : (s.withSpi v).draws = s.draws := rfl
end

section
variable (v : Raster) (s : State)
@[simp] theorem withRaster_arg : (s.withRaster v).arg = s.arg := rfl
@[simp] theorem withRaster_len0 : (s.withRaster v).len0 = s.len0 := rfl
@[simp] theorem withRaster_len1 : (s.withRaster v).len1 = s.len1 := rfl
@[simp] theorem withRaster_dlen : (s.withRaster v).dlen = s.dlen := rfl
@[simp] theorem withRaster_rw : (s.withRaster v).rw = s.rw := rfl
@[simp] theorem withRaster_rh : (s.withRaster v).rh = s.rh := rfl
@[simp] theorem withRaster_op : (s.withRaster v).op = s.op := rfl
@[simp] theorem withRaster_seq : (s.withRaster v).seq = s.seq := rfl
@[simp] theorem withRaster_err : (s.withRaster v).err = s.err := rfl
@[simp] theorem withRaster_done : (s.withRaster v).done = s.done := rfl
@[simp] theorem withRaster_lastBusy : (s.withRaster v).lastBusy = s.lastBusy := rfl
@[simp] theorem withRaster_session : (s.withRaster v).session = s.session := rfl
@[simp] theorem withRaster_gpioOpen : (s.withRaster v).gpioOpen = s.gpioOpen := rfl
@[simp] theorem withRaster_spiOpen : (s.withRaster v).spiOpen = s.spiOpen := rfl
@[simp] theorem withRaster_rstL : (s.withRaster v).rstL = s.rstL := rfl
@[simp] theorem withRaster_dcL : (s.withRaster v).dcL = s.dcL := rfl
@[simp] theorem withRaster_csL : (s.withRaster v).csL = s.csL := rfl
@[simp] theorem withRaster_plane0 : (s.withRaster v).plane0 = s.plane0 := rfl
@[simp] theorem withRaster_plane1 : (s.withRaster v).plane1 = s.plane1 := rfl
@[simp] theorem withRaster_dbuf : (s.withRaster v).dbuf = s.dbuf := rfl
@[simp] theorem withRaster_trace : (s.withRaster v).trace = s.trace := rfl
@[simp] theorem withRaster_raster : (s.withRaster v).raster = v := rfl
@[simp] theorem withRaster_host : (s.withRaster v).host = s.host := rfl
@[simp] theorem withRaster_xferIn : (s.withRaster v).xferIn = s.xferIn := rfl
@[simp] theorem withRaster_xferDrawn : (s.withRaster v).xferDrawn = s.xferDrawn := rfl
@[simp] theorem withRaster_busyIn : (s.withRaster v).busyIn = s.busyIn := rfl
@[simp] theorem withRaster_busyDrawn : (s.withRaster v).busyDrawn = s.busyDrawn := rfl
@[simp] theorem withRaster_rstIn : (s.withRaster v).rstIn = s.rstIn := rfl
@[simp] theorem withRaster_epoch : (s.withRaster v).epoch = s.epoch := rfl
@[simp] theorem withRaster_draws : (s.withRaster v).draws = s.draws := rfl
end

section
variable (v : List HostAct) (s : State)
@[simp] theorem withHost_arg : (s.withHost v).arg = s.arg := rfl
@[simp] theorem withHost_len0 : (s.withHost v).len0 = s.len0 := rfl
@[simp] theorem withHost_len1 : (s.withHost v).len1 = s.len1 := rfl
@[simp] theorem withHost_dlen : (s.withHost v).dlen = s.dlen := rfl
@[simp] theorem withHost_rw : (s.withHost v).rw = s.rw := rfl
@[simp] theorem withHost_rh : (s.withHost v).rh = s.rh := rfl
@[simp] theorem withHost_op : (s.withHost v).op = s.op := rfl
@[simp] theorem withHost_seq : (s.withHost v).seq = s.seq := rfl
@[simp] theorem withHost_err : (s.withHost v).err = s.err := rfl
@[simp] theorem withHost_done : (s.withHost v).done = s.done := rfl
@[simp] theorem withHost_lastBusy : (s.withHost v).lastBusy = s.lastBusy := rfl
@[simp] theorem withHost_session : (s.withHost v).session = s.session := rfl
@[simp] theorem withHost_gpioOpen : (s.withHost v).gpioOpen = s.gpioOpen := rfl
@[simp] theorem withHost_spiOpen : (s.withHost v).spiOpen = s.spiOpen := rfl
@[simp] theorem withHost_rstL : (s.withHost v).rstL = s.rstL := rfl
@[simp] theorem withHost_dcL : (s.withHost v).dcL = s.dcL := rfl
@[simp] theorem withHost_csL : (s.withHost v).csL = s.csL := rfl
@[simp] theorem withHost_plane0 : (s.withHost v).plane0 = s.plane0 := rfl
@[simp] theorem withHost_plane1 : (s.withHost v).plane1 = s.plane1 := rfl
@[simp] theorem withHost_dbuf : (s.withHost v).dbuf = s.dbuf := rfl
@[simp] theorem withHost_trace : (s.withHost v).trace = s.trace := rfl
@[simp] theorem withHost_raster : (s.withHost v).raster = s.raster := rfl
@[simp] theorem withHost_host : (s.withHost v).host = v := rfl
@[simp] theorem withHost_xferIn : (s.withHost v).xferIn = s.xferIn := rfl
@[simp] theorem withHost_xferDrawn : (s.withHost v).xferDrawn = s.xferDrawn := rfl
@[simp] theorem withHost_busyIn : (s.withHost v).busyIn = s.busyIn := rfl
@[simp] theorem withHost_busyDrawn : (s.withHost v).busyDrawn = s.busyDrawn := rfl
@[simp] theorem withHost_rstIn : (s.withHost v).rstIn = s.rstIn := rfl
@[simp] theorem withHost_epoch : (s.withHost v).epoch = s.epoch := rfl
@[simp] theorem withHost_draws : (s.withHost v).draws = s.draws := rfl
end

section
variable (o : Op) (s : State)
@[simp] theorem start_arg : (s.start o).arg = s.arg := rfl
@[simp] theorem start_len0 : (s.start o).len0 = s.len0 := rfl
@[simp] theorem start_len1 : (s.start o).len1 = s.len1 := rfl
@[simp] theorem start_dlen : (s.start o).dlen = s.dlen := rfl
@[simp] theorem start_rw : (s.start o).rw = s.rw := rfl
@[simp] theorem start_rh : (s.start o).rh = s.rh := rfl
@[simp] theorem start_op : (s.start o).op = o := rfl
@[simp] theorem start_seq : (s.start o).seq = { s.seq with ph := 0#6, sub := 0#2, idx := 0#16 } := rfl
@[simp] theorem start_err : (s.start o).err = s.err := rfl
@[simp] theorem start_done : (s.start o).done = s.done := rfl
@[simp] theorem start_lastBusy : (s.start o).lastBusy = s.lastBusy := rfl
@[simp] theorem start_session : (s.start o).session = s.session := rfl
@[simp] theorem start_gpioOpen : (s.start o).gpioOpen = s.gpioOpen := rfl
@[simp] theorem start_spiOpen : (s.start o).spiOpen = s.spiOpen := rfl
@[simp] theorem start_rstL : (s.start o).rstL = s.rstL := rfl
@[simp] theorem start_dcL : (s.start o).dcL = s.dcL := rfl
@[simp] theorem start_csL : (s.start o).csL = s.csL := rfl
@[simp] theorem start_plane0 : (s.start o).plane0 = s.plane0 := rfl
@[simp] theorem start_plane1 : (s.start o).plane1 = s.plane1 := rfl
@[simp] theorem start_dbuf : (s.start o).dbuf = s.dbuf := rfl
@[simp] theorem start_trace : (s.start o).trace = s.trace := rfl
@[simp] theorem start_raster : (s.start o).raster = s.raster := rfl
@[simp] theorem start_host : (s.start o).host = s.host := rfl
@[simp] theorem start_xferIn : (s.start o).xferIn = s.xferIn := rfl
@[simp] theorem start_xferDrawn : (s.start o).xferDrawn = s.xferDrawn := rfl
@[simp] theorem start_busyIn : (s.start o).busyIn = s.busyIn := rfl
@[simp] theorem start_busyDrawn : (s.start o).busyDrawn = s.busyDrawn := rfl
@[simp] theorem start_rstIn : (s.start o).rstIn = s.rstIn := rfl
@[simp] theorem start_epoch : (s.start o).epoch = s.epoch := rfl
@[simp] theorem start_draws : (s.start o).draws = s.draws := rfl
end

section
variable (r : OutPin) (v : Level) (s : State)
@[simp] theorem pin_arg : (s.pin r v).arg = s.arg := by cases r <;> rfl
@[simp] theorem pin_len0 : (s.pin r v).len0 = s.len0 := by cases r <;> rfl
@[simp] theorem pin_len1 : (s.pin r v).len1 = s.len1 := by cases r <;> rfl
@[simp] theorem pin_dlen : (s.pin r v).dlen = s.dlen := by cases r <;> rfl
@[simp] theorem pin_rw : (s.pin r v).rw = s.rw := by cases r <;> rfl
@[simp] theorem pin_rh : (s.pin r v).rh = s.rh := by cases r <;> rfl
@[simp] theorem pin_op : (s.pin r v).op = s.op := by cases r <;> rfl
@[simp] theorem pin_seq : (s.pin r v).seq = s.seq := by cases r <;> rfl
@[simp] theorem pin_err : (s.pin r v).err = s.err := by cases r <;> rfl
@[simp] theorem pin_done : (s.pin r v).done = s.done := by cases r <;> rfl
@[simp] theorem pin_lastBusy : (s.pin r v).lastBusy = s.lastBusy := by cases r <;> rfl
@[simp] theorem pin_session : (s.pin r v).session = s.session := by cases r <;> rfl
@[simp] theorem pin_gpioOpen : (s.pin r v).gpioOpen = s.gpioOpen := by cases r <;> rfl
@[simp] theorem pin_spiOpen : (s.pin r v).spiOpen = s.spiOpen := by cases r <;> rfl
@[simp] theorem pin_rstL : (s.pin r v).rstL = if r = .rst then v else s.rstL := by cases r <;> rfl
@[simp] theorem pin_dcL : (s.pin r v).dcL = if r = .dc then v else s.dcL := by cases r <;> rfl
@[simp] theorem pin_csL : (s.pin r v).csL = if r = .cs then v else s.csL := by cases r <;> rfl
@[simp] theorem pin_plane0 : (s.pin r v).plane0 = s.plane0 := by cases r <;> rfl
@[simp] theorem pin_plane1 : (s.pin r v).plane1 = s.plane1 := by cases r <;> rfl
@[simp] theorem pin_dbuf : (s.pin r v).dbuf = s.dbuf := by cases r <;> rfl
@[simp] theorem pin_trace : (s.pin r v).trace = s.trace ++ [.pin r v] := by cases r <;> rfl
@[simp] theorem pin_raster : (s.pin r v).raster = s.raster := by cases r <;> rfl
@[simp] theorem pin_host : (s.pin r v).host = s.host := by cases r <;> rfl
@[simp] theorem pin_xferIn : (s.pin r v).xferIn = s.xferIn := by cases r <;> rfl
@[simp] theorem pin_xferDrawn : (s.pin r v).xferDrawn = s.xferDrawn := by cases r <;> rfl
@[simp] theorem pin_busyIn : (s.pin r v).busyIn = s.busyIn := by cases r <;> rfl
@[simp] theorem pin_busyDrawn : (s.pin r v).busyDrawn = s.busyDrawn := by cases r <;> rfl
@[simp] theorem pin_rstIn : (s.pin r v).rstIn = s.rstIn := by cases r <;> rfl
@[simp] theorem pin_epoch : (s.pin r v).epoch = s.epoch := by cases r <;> rfl
@[simp] theorem pin_draws : (s.pin r v).draws = s.draws := by cases r <;> rfl
end

section
variable (b : Buf) (s : State)
@[simp] theorem setBuf_arg (i : Nat) (v : Byte) : (s.setBuf b i v).arg = s.arg := by cases b <;> rfl
@[simp] theorem setBuf_len0 (i : Nat) (v : Byte) : (s.setBuf b i v).len0 = s.len0 := by cases b <;> rfl
@[simp] theorem setBuf_len1 (i : Nat) (v : Byte) : (s.setBuf b i v).len1 = s.len1 := by cases b <;> rfl
@[simp] theorem setBuf_dlen (i : Nat) (v : Byte) : (s.setBuf b i v).dlen = s.dlen := by cases b <;> rfl
@[simp] theorem setBuf_rw (i : Nat) (v : Byte) : (s.setBuf b i v).rw = s.rw := by cases b <;> rfl
@[simp] theorem setBuf_rh (i : Nat) (v : Byte) : (s.setBuf b i v).rh = s.rh := by cases b <;> rfl
@[simp] theorem setBuf_op (i : Nat) (v : Byte) : (s.setBuf b i v).op = s.op := by cases b <;> rfl
@[simp] theorem setBuf_seq (i : Nat) (v : Byte) : (s.setBuf b i v).seq = s.seq := by cases b <;> rfl
@[simp] theorem setBuf_err (i : Nat) (v : Byte) : (s.setBuf b i v).err = s.err := by cases b <;> rfl
@[simp] theorem setBuf_done (i : Nat) (v : Byte) : (s.setBuf b i v).done = s.done := by cases b <;> rfl
@[simp] theorem setBuf_lastBusy (i : Nat) (v : Byte) : (s.setBuf b i v).lastBusy = s.lastBusy := by cases b <;> rfl
@[simp] theorem setBuf_session (i : Nat) (v : Byte) : (s.setBuf b i v).session = s.session := by cases b <;> rfl
@[simp] theorem setBuf_gpioOpen (i : Nat) (v : Byte) : (s.setBuf b i v).gpioOpen = s.gpioOpen := by cases b <;> rfl
@[simp] theorem setBuf_spiOpen (i : Nat) (v : Byte) : (s.setBuf b i v).spiOpen = s.spiOpen := by cases b <;> rfl
@[simp] theorem setBuf_rstL (i : Nat) (v : Byte) : (s.setBuf b i v).rstL = s.rstL := by cases b <;> rfl
@[simp] theorem setBuf_dcL (i : Nat) (v : Byte) : (s.setBuf b i v).dcL = s.dcL := by cases b <;> rfl
@[simp] theorem setBuf_csL (i : Nat) (v : Byte) : (s.setBuf b i v).csL = s.csL := by cases b <;> rfl
@[simp] theorem setBuf_trace (i : Nat) (v : Byte) : (s.setBuf b i v).trace = s.trace := by cases b <;> rfl
@[simp] theorem setBuf_raster (i : Nat) (v : Byte) : (s.setBuf b i v).raster = s.raster := by cases b <;> rfl
@[simp] theorem setBuf_host (i : Nat) (v : Byte) : (s.setBuf b i v).host = s.host := by cases b <;> rfl
@[simp] theorem setBuf_xferIn (i : Nat) (v : Byte) : (s.setBuf b i v).xferIn = s.xferIn := by cases b <;> rfl
@[simp] theorem setBuf_xferDrawn (i : Nat) (v : Byte) : (s.setBuf b i v).xferDrawn = s.xferDrawn := by cases b <;> rfl
@[simp] theorem setBuf_busyIn (i : Nat) (v : Byte) : (s.setBuf b i v).busyIn = s.busyIn := by cases b <;> rfl
@[simp] theorem setBuf_busyDrawn (i : Nat) (v : Byte) : (s.setBuf b i v).busyDrawn = s.busyDrawn := by cases b <;> rfl
@[simp] theorem setBuf_rstIn (i : Nat) (v : Byte) : (s.setBuf b i v).rstIn = s.rstIn := by cases b <;> rfl
@[simp] theorem setBuf_epoch (i : Nat) (v : Byte) : (s.setBuf b i v).epoch = s.epoch := by cases b <;> rfl
@[simp] theorem setBuf_draws (i : Nat) (v : Byte) : (s.setBuf b i v).draws = s.draws := by cases b <;> rfl
@[simp] theorem setLen_arg (v : Word16) : (s.setLen b v).arg = s.arg := by cases b <;> rfl
@[simp] theorem setLen_rw (v : Word16) : (s.setLen b v).rw = s.rw := by cases b <;> rfl
@[simp] theorem setLen_rh (v : Word16) : (s.setLen b v).rh = s.rh := by cases b <;> rfl
@[simp] theorem setLen_op (v : Word16) : (s.setLen b v).op = s.op := by cases b <;> rfl
@[simp] theorem setLen_seq (v : Word16) : (s.setLen b v).seq = s.seq := by cases b <;> rfl
@[simp] theorem setLen_err (v : Word16) : (s.setLen b v).err = s.err := by cases b <;> rfl
@[simp] theorem setLen_done (v : Word16) : (s.setLen b v).done = s.done := by cases b <;> rfl
@[simp] theorem setLen_lastBusy (v : Word16) : (s.setLen b v).lastBusy = s.lastBusy := by cases b <;> rfl
@[simp] theorem setLen_session (v : Word16) : (s.setLen b v).session = s.session := by cases b <;> rfl
@[simp] theorem setLen_gpioOpen (v : Word16) : (s.setLen b v).gpioOpen = s.gpioOpen := by cases b <;> rfl
@[simp] theorem setLen_spiOpen (v : Word16) : (s.setLen b v).spiOpen = s.spiOpen := by cases b <;> rfl
@[simp] theorem setLen_rstL (v : Word16) : (s.setLen b v).rstL = s.rstL := by cases b <;> rfl
@[simp] theorem setLen_dcL (v : Word16) : (s.setLen b v).dcL = s.dcL := by cases b <;> rfl
@[simp] theorem setLen_csL (v : Word16) : (s.setLen b v).csL = s.csL := by cases b <;> rfl
@[simp] theorem setLen_plane0 (v : Word16) : (s.setLen b v).plane0 = s.plane0 := by cases b <;> rfl
@[simp] theorem setLen_plane1 (v : Word16) : (s.setLen b v).plane1 = s.plane1 := by cases b <;> rfl
@[simp] theorem setLen_dbuf (v : Word16) : (s.setLen b v).dbuf = s.dbuf := by cases b <;> rfl
@[simp] theorem setLen_trace (v : Word16) : (s.setLen b v).trace = s.trace := by cases b <;> rfl
@[simp] theorem setLen_raster (v : Word16) : (s.setLen b v).raster = s.raster := by cases b <;> rfl
@[simp] theorem setLen_host (v : Word16) : (s.setLen b v).host = s.host := by cases b <;> rfl
@[simp] theorem setLen_xferIn (v : Word16) : (s.setLen b v).xferIn = s.xferIn := by cases b <;> rfl
@[simp] theorem setLen_xferDrawn (v : Word16) : (s.setLen b v).xferDrawn = s.xferDrawn := by cases b <;> rfl
@[simp] theorem setLen_busyIn (v : Word16) : (s.setLen b v).busyIn = s.busyIn := by cases b <;> rfl
@[simp] theorem setLen_busyDrawn (v : Word16) : (s.setLen b v).busyDrawn = s.busyDrawn := by cases b <;> rfl
@[simp] theorem setLen_rstIn (v : Word16) : (s.setLen b v).rstIn = s.rstIn := by cases b <;> rfl
@[simp] theorem setLen_epoch (v : Word16) : (s.setLen b v).epoch = s.epoch := by cases b <;> rfl
@[simp] theorem setLen_draws (v : Word16) : (s.setLen b v).draws = s.draws := by cases b <;> rfl
end

end Sys2Proof.Machine
end

