-- ==== Sys2Proof/Laws/Memory.lean ====
section
/-! SUPPORT. The laws of the byte memories: reads after writes, the canonical form, bounds. -/

namespace Sys2Proof.Machine

@[simp] theorem Memory.find?_nil (a : Nat) : Memory.find? [] a = none := rfl

/-- A write changes the byte at its index and no other. -/
theorem Memory.find?_write (m : Memory) (a b : Nat) (v : Byte) (h : m.wf = true) :
    (m.write a v).find? b = if a = b then some v else m.find? b := by
  induction m with
  | nil => simp [Memory.write, Memory.find?]
  | cons c m ih =>
    have hm : Memory.wf m = true := by
      cases m with
      | nil => rfl
      | cons d m => simp [Memory.wf] at h; exact h.2
    have below : ∀ k, k < c.1 → Memory.find? m k = none := by
      clear ih hm
      induction m generalizing c with
      | nil => intro k _; rfl
      | cons d m ih2 =>
        intro k hk
        simp [Memory.wf] at h
        have hd : d.1 ≠ k := by omega
        rw [Memory.find?, if_neg hd]
        exact ih2 d h.2 k (by omega)
    unfold Memory.write
    split
    · rename_i hlt
      by_cases hab : a = b
      · subst hab; simp [Memory.find?]
      · simp [Memory.find?, hab]
    · split
      · rename_i _ heq
        by_cases hab : a = b
        · subst hab; simp [Memory.find?]
        · have : c.1 ≠ b := by omega
          simp [Memory.find?, hab, this]
      · rename_i hnl hne
        by_cases hab : a = b
        · subst hab; simp [Memory.find?, hne, ih hm]
        · simp [Memory.find?, ih hm, hab]

/-- The first index of a written memory. -/
theorem Memory.wf_cons_write (c : Host.Cell) (m : Memory) (a : Nat) (v : Byte) (hc : c.1 < a)
    (h : Memory.wf (c :: m) = true) : Memory.wf (c :: m.write a v) = true := by
  induction m generalizing c with
  | nil => simp [Memory.write, Memory.wf, hc]
  | cons d m ih =>
    simp [Memory.wf] at h
    unfold Memory.write
    split
    · rename_i hlt
      simp [Memory.wf, hc, hlt, h.2]
    · split
      · rename_i _ heq
        cases m with
        | nil => simp [Memory.wf, hc]
        | cons e m => have := h.2; simp [Memory.wf] at this; simp [Memory.wf, ← heq, this, h.1]
      · rename_i hnl hne
        have := ih d (by omega) h.2
        simp [Memory.wf, h.1, this]

/-- Every write keeps the canonical form. -/
theorem Memory.write_wf (m : Memory) (a : Nat) (v : Byte) (h : m.wf = true) : (m.write a v).wf = true := by
  cases m with
  | nil => rfl
  | cons c m =>
    unfold Memory.write
    split
    · rename_i hlt; simp [Memory.wf, hlt, h]
    · split
      · rename_i _ heq
        cases m with
        | nil => rfl
        | cons d m => simp [Memory.wf] at h; simp [Memory.wf, ← heq, h]
      · rename_i hnl hne
        exact Memory.wf_cons_write c m a v (by omega) h

/-- Every write below a bound keeps every index below it. -/
theorem Memory.write_below (m : Memory) (a n : Nat) (v : Byte) (h : m.below n) (ha : a < n) :
    (m.write a v).below n := by
  induction m with
  | nil => intro c hc; simp [Memory.write] at hc; simp [hc, ha]
  | cons d m ih =>
    have hd : d.1 < n := h d (by simp)
    have hm : Memory.below n m := fun c hc => h c (by simp [hc])
    unfold Memory.write
    split
    · intro c hc; simp at hc; rcases hc with rfl | rfl | hc
      · exact ha
      · exact hd
      · exact hm c hc
    · split
      · intro c hc; simp at hc; rcases hc with rfl | hc
        · exact ha
        · exact hm c hc
      · intro c hc; simp at hc; rcases hc with rfl | hc
        · exact hd
        · exact ih hm c hc

/-- A write to a buffer leaves the memories of the others. -/
theorem setBuf_buf (s : State) (b c : Buf) (i : Nat) (v : Byte) :
    (s.setBuf b i v).buf c = if b = c then (s.buf b).write i v else s.buf c := by
  cases b <;> cases c <;> rfl

/-- The byte read after a write to a buffer in canonical form. -/
theorem setBuf_bufByte (s : State) (b c : Buf) (i k : Nat) (v : Byte) (h : (s.buf b).wf = true) :
    (s.setBuf b i v).bufByte c k = if b = c ∧ i = k then v else s.bufByte c k := by
  have hepoch : (s.setBuf b i v).epoch = s.epoch := by cases b <;> rfl
  unfold State.bufByte
  rw [setBuf_buf, hepoch]
  by_cases hbc : b = c
  · subst hbc
    rw [if_pos rfl, Memory.find?_write _ _ _ _ h]
    by_cases hik : i = k <;> simp [hik]
  · simp [hbc]

/-- `MemOk` depends on the three memories only. -/
theorem memOk_congr {s t : State} (h : s.MemOk) (h0 : t.plane0 = s.plane0) (h1 : t.plane1 = s.plane1)
    (hd : t.dbuf = s.dbuf) : t.MemOk := by
  unfold State.MemOk at *
  rw [h0, h1, hd]
  exact h

/-- A write within a buffer's depth keeps the memories' form. -/
theorem setBuf_memOk (s : State) (b : Buf) (i : Nat) (v : Byte) (h : s.MemOk) (hi : i < b.depth) :
    (s.setBuf b i v).MemOk := by
  obtain ⟨⟨w0, w1, wd⟩, b0, b1, bd⟩ := h
  cases b
  · exact ⟨⟨Memory.write_wf _ _ _ w0, w1, wd⟩, Memory.write_below _ _ _ _ b0 hi, b1, bd⟩
  · exact ⟨⟨w0, Memory.write_wf _ _ _ w1, wd⟩, b0, Memory.write_below _ _ _ _ b1 hi, bd⟩
  · exact ⟨⟨w0, w1, Memory.write_wf _ _ _ wd⟩, b0, b1, Memory.write_below _ _ _ _ bd hi⟩

/-- Each buffer of a state with `MemOk` is in canonical form. -/
theorem memOk_buf {s : State} (h : s.MemOk) (b : Buf) : (s.buf b).wf = true := by
  obtain ⟨⟨w0, w1, wd⟩, _⟩ := h
  cases b <;> assumption

end Sys2Proof.Machine
end

