-- ==== Sys2Proof/Laws/Ops.lean ====
section
/-! SUPPORT. What the shared operations do: acceptance, a frame step, the rows, the environment's answers. -/

namespace Sys2Proof.Machine

/-- The answers ahead move up by one when one is taken. -/
@[simp] theorem xferAt_popXfer (s : State) (k : Nat) : s.popXfer.xferAt k = s.xferAt (k + 1) := by
  have h : s.xferIn.tail[k]? = s.xferIn[k + 1]? := by cases s.xferIn <;> simp
  simp only [State.xferAt, popXfer_xferIn, popXfer_xferDrawn, h, Nat.add_assoc, Nat.add_comm 1 k]

/-- The samples ahead move up by one when one is taken. -/
@[simp] theorem busyAt_popBusy (s : State) (k : Nat) : s.popBusy.busyAt k = s.busyAt (k + 1) := by
  have h : s.busyIn.tail[k]? = s.busyIn[k + 1]? := by cases s.busyIn <;> simp
  simp only [State.busyAt, popBusy_busyIn, popBusy_busyDrawn, h, Nat.add_assoc, Nat.add_comm 1 k]

/-- The answers ahead depend on the two fields that hold them. -/
theorem xferAt_congr {s t : State} (h : t.xferIn = s.xferIn) (hd : t.xferDrawn = s.xferDrawn) (k : Nat) :
    t.xferAt k = s.xferAt k := by
  simp only [State.xferAt, h, hd]

/-- The answers ahead move up by as many as are taken. -/
theorem xferAt_drop {s t : State} {j : Nat} (h : t.xferIn = s.xferIn.drop j) (hd : t.xferDrawn = s.xferDrawn + j)
    (k : Nat) : t.xferAt k = s.xferAt (j + k) := by
  simp only [State.xferAt, h, hd, List.getElem?_drop, Nat.add_assoc]

/-- The samples ahead depend on the two fields that hold them. -/
theorem busyAt_congr {s t : State} (h : t.busyIn = s.busyIn) (hd : t.busyDrawn = s.busyDrawn) (k : Nat) :
    t.busyAt k = s.busyAt k := by
  simp only [State.busyAt, h, hd]

/-- A byte of a buffer depends on the memories and the number of hardware resets. -/
theorem bufByte_congr {s t : State} (h0 : t.plane0 = s.plane0) (h1 : t.plane1 = s.plane1) (hd : t.dbuf = s.dbuf)
    (he : t.epoch = s.epoch) (b : Buf) (i : Nat) : t.bufByte b i = s.bufByte b i := by
  have hb : t.buf b = s.buf b := by cases b <;> assumption
  simp only [State.bufByte, hb, he]

/-- What acceptance can do. -/
theorem accept_cases (op : Op) (arg : Byte) (s : State) :
    (s.op ≠ .idle ∧ s.accept op arg = s) ∨
    (s.op = .idle ∧ valid op s.session = false ∧
      s.accept op arg = (s.withArg arg).raise op.code .invalidState) ∨
    (s.op = .idle ∧ valid op s.session = true ∧ s.badLength op = true ∧
      s.accept op arg = (s.withArg arg).raise op.code .badRequest) ∨
    (s.op = .idle ∧ valid op s.session = true ∧ s.badLength op = false ∧
      s.accept op arg = (s.withArg arg).start op) := by
  have hb : (s.withArg arg).badLength op = s.badLength op := rfl
  unfold State.accept
  by_cases h : s.op = .idle
  · by_cases hv : valid op s.session = true
    · by_cases hl : s.badLength op = true
      · simp [h, hv, hb, hl]
      · simp [h, hv, hb, hl]
    · simp [h, hv]
  · simp [h]

/-- A CMD row's step is the command frame of its byte, whether the byte is one of the ten or not. -/
theorem exec_of_decodeWire {c : Byte} {i : Instr} {s : State} (h : decodeWire c = .ok i)
    (hc : s.commandByte? = some c) : exec i s = .next (s.commandStep c) := by
  have key : ∀ p ∈ wireTable, ∀ s : State, s.commandByte? = some p.1 → exec p.2 s = .next (s.commandStep p.1) := by
    intro p hp s hs
    simp only [wireTable, List.mem_cons, List.not_mem_nil, or_false] at hp
    rcases hp with rfl | rfl | rfl | rfl | rfl | rfl | rfl | rfl | rfl | rfl
    · simp only [exec, execBoosterSoftStart, State.sendAt, hs, if_true]
    · simp only [exec, execPowerOn, State.sendAt, hs, if_true]
    · simp only [exec, execPanelSetting, State.sendAt, hs, if_true]
    · simp only [exec, execVcomAndInterval, State.sendAt, hs, if_true]
    · simp only [exec, execResolutionSetting, State.sendAt, hs, if_true]
    · simp only [exec, execDisplayBlack, State.sendAt, hs, if_true]
    · simp only [exec, execDisplayRed, State.sendAt, hs, if_true]
    · simp only [exec, execRefresh, State.sendAt, hs, if_true]
    · simp only [exec, execPowerOff, State.sendAt, hs, if_true]
    · simp only [exec, execDeepSleep, State.sendAt, hs, if_true]
  have mem : ∀ (l : List (Byte × Instr)), l.lookup c = some i → (c, i) ∈ l := by
    intro l
    induction l with
    | nil => simp
    | cons p l ih =>
      obtain ⟨a, j⟩ := p
      simp only [List.lookup_cons]
      by_cases hca : c = a
      · subst hca
        simp
        rintro rfl
        exact .inl rfl
      · have : (c == a) = false := by simpa using hca
        simp [this]
        exact fun h => .inr (ih h)
  unfold decodeWire at h
  split at h
  · rename_i j hj
    cases h
    exact key (c, i) (mem _ hj) s hc
  · cases h

/-- What one sub-step of a frame can do. -/
theorem frameStep_cases (dc : Level) (bs : List Byte) (fin : State → State) (s : State) :
    (s.seq.sub = 0#2 ∧ s.frameStep dc bs fin = (s.pin .dc dc).withSub 1#2) ∨
    (s.seq.sub = 1#2 ∧ s.frameStep dc bs fin = (s.pin .cs false).withSub 2#2) ∨
    (s.seq.sub = 2#2 ∧ s.xferAt 0 = .pending ∧ s.frameStep dc bs fin = s.popXfer) ∨
    (∃ r, s.seq.sub = 2#2 ∧ s.xferAt 0 = .answer r ∧
      s.frameStep dc bs fin =
        (s.popXfer.emit (.xfer bs r)).withSeq { s.seq with sub := 3#2, xfail := r == .fail }) ∨
    (s.seq.sub = 3#2 ∧ s.seq.xfail = true ∧ s.csL = false ∧ s.frameStep dc bs fin = s.pin .cs true) ∨
    (s.seq.sub = 3#2 ∧ s.seq.xfail = true ∧ s.csL = true ∧
      s.frameStep dc bs fin = s.raise s.op.code .transferFailure) ∨
    (s.seq.sub = 3#2 ∧ s.seq.xfail = false ∧ s.frameStep dc bs fin = fin (s.pin .cs true)) := by
  have h4 : ∀ b : BitVec 2, b = 0#2 ∨ b = 1#2 ∨ b = 2#2 ∨ b = 3#2 := by decide
  rcases h4 s.seq.sub with h | h | h | h
  · simp [State.frameStep, h]
  · simp [State.frameStep, h]
  · cases hx : s.xferAt 0 with
    | pending => simp [State.frameStep, h, State.transferStep, hx]
    | answer r => simp [State.frameStep, h, State.transferStep, hx]
  · cases hx : s.seq.xfail <;> cases hc : s.csL <;> simp [State.frameStep, h, State.closeFrame, hx, hc]

end Sys2Proof.Machine
end

