-- ==== Sys2Proof/Laws/Step.lean ====
section
/-! SUPPORT. What a step does, said once: hardware reset, the idle sequencer, the running sequencer; and runs of steps. -/

namespace Sys2Proof.Machine

/-- Hardware reset comes before everything. -/
theorem step_inReset {s : State} (h : s.inReset = true) : step s = .next s.hardReset := by
  simp [step, State.fetch, h]

/-- A running sequencer that stands at a row takes that row's step. -/
theorem step_running {s : State} {r : Row} (hr : s.inReset = false) (hop : s.op ≠ .idle) (hrow : s.row? = some r) :
    step s = .next (s.tick.rowStep r) := by
  have hrow' : s.tick.row? = some r := hrow
  unfold step State.fetch
  simp only [hr, Bool.false_eq_true, if_false, hop, State.fetchRow, hrow']
  cases hc : s.tick.commandByte? with
  | none => simp
  | some c =>
    have : ∃ f, r = .cmd f ∧ f.byte s.tick = c := by
      unfold State.commandByte? at hc
      rw [hrow'] at hc
      cases r <;> simp_all
    obtain ⟨f, rfl, hf⟩ := this
    cases hd : decodeWire c with
    | ok i => simp only [hd, exec_of_decodeWire hd hc, State.rowStep, hf]
    | error e => simp only [hd]

/-- An idle sequencer with no host action only ends the DONE pulse. -/
theorem step_idle_nil {s : State} (hr : s.inReset = false) (hop : s.op = .idle) (hh : s.host = []) :
    step s = .next s.tick := by
  simp [step, State.fetch, hr, hop, State.fetchHost, hh]

/-- An idle sequencer runs the request it is given. -/
theorem step_request {s : State} {w : BitVec 12} {rest : List HostAct} (hr : s.inReset = false) (hop : s.op = .idle)
    (hh : s.host = .request w :: rest) : step s = exec (decodeRequest w) (s.tick.withHost rest) := by
  simp [step, State.fetch, hr, hop, State.fetchHost, hh]

/-- What a step can be. -/
theorem step_cases {s t : State} (h : step s = .next t) :
    (s.inReset = true ∧ t = s.hardReset) ∨
    (s.inReset = false ∧ s.op = .idle ∧ s.host = [] ∧ t = s.tick) ∨
    (∃ w rest, s.inReset = false ∧ s.op = .idle ∧ s.host = .request w :: rest ∧
      exec (decodeRequest w) (s.tick.withHost rest) = .next t) ∨
    (∃ n v rest, s.inReset = false ∧ s.op = .idle ∧ s.host = .writeReg n v :: rest ∧
      t = (s.tick.withHost rest).writeReg n v) ∨
    (∃ b i v rest, s.inReset = false ∧ s.op = .idle ∧ s.host = .writeBuf b i v :: rest ∧ i.toNat < b.depth ∧
      t = (s.tick.withHost rest).setBuf b i.toNat v) ∨
    (∃ r rest, s.inReset = false ∧ s.op = .idle ∧ s.host = .present r :: rest ∧
      t = (s.tick.withHost rest).withRaster r) ∨
    (∃ r, s.inReset = false ∧ s.op ≠ .idle ∧ s.row? = some r ∧ t = s.tick.rowStep r) := by
  cases hr : s.inReset with
  | true => rw [step_inReset hr] at h; cases h; exact .inl ⟨rfl, rfl⟩
  | false =>
    right
    by_cases hop : s.op = .idle
    · cases hh : s.host with
      | nil => rw [step_idle_nil hr hop hh] at h; cases h; exact .inl ⟨rfl, hop, rfl, rfl⟩
      | cons a rest =>
        right
        cases a with
        | request w => rw [step_request hr hop hh] at h; exact .inl ⟨w, rest, rfl, hop, rfl, h⟩
        | writeReg n v =>
          simp [step, State.fetch, hr, hop, State.fetchHost, hh, State.hostAct] at h
          exact .inr (.inl ⟨n, v, rest, rfl, hop, rfl, h.symm⟩)
        | writeBuf b i v =>
          simp only [step, State.fetch, hr, hop, State.fetchHost, tick_host, hh, State.hostAct, Bool.false_eq_true,
            if_false, if_true] at h
          split at h
          · rename_i hi
            cases h
            exact .inr (.inr (.inl ⟨b, i, v, rest, rfl, hop, rfl, hi, rfl⟩))
          · cases h
        | present r =>
          simp [step, State.fetch, hr, hop, State.fetchHost, hh, State.hostAct] at h
          exact .inr (.inr (.inr (.inl ⟨r, rest, rfl, hop, rfl, h.symm⟩)))
    · cases hrow : s.row? with
      | none =>
        have hrow' : s.tick.row? = none := hrow
        simp [step, State.fetch, hr, hop, State.fetchRow, hrow'] at h
      | some r =>
        rw [step_running hr hop hrow] at h
        cases h
        exact .inr (.inr (.inr (.inr (.inr ⟨r, rfl, hop, rfl, rfl⟩))))

/-- What a request does, by its op field. -/
theorem exec_request (w : BitVec 12) (s : State) :
    (∃ op, op ≠ .idle ∧ op.code = reqOp w ∧ exec (decodeRequest w) s = .next (s.accept op (reqArg w))) ∨
    ((reqOp w = 0#4 ∨ 0xB#4 ≤ reqOp w) ∧
      exec (decodeRequest w) s = .next (s.rejectReserved (reqOp w) (reqArg w))) := by
  generalize ho : reqOp w = o
  have hcases : ∀ o : BitVec 4, o = 0#4 ∨ o = 1#4 ∨ o = 2#4 ∨ o = 3#4 ∨ o = 4#4 ∨ o = 5#4 ∨ o = 6#4 ∨ o = 7#4 ∨
      o = 8#4 ∨ o = 9#4 ∨ o = 10#4 ∨ o = 11#4 ∨ o = 12#4 ∨ o = 13#4 ∨ o = 14#4 ∨ o = 15#4 := by decide
  rcases hcases o with h | h | h | h | h | h | h | h | h | h | h | h | h | h | h | h <;>
    rw [h] at ho ⊢ <;> unfold decodeRequest <;> rw [ho]
  · exact .inr ⟨.inl rfl, rfl⟩
  · exact .inl ⟨.reset, by decide, rfl, rfl⟩
  · exact .inl ⟨.init, by decide, rfl, rfl⟩
  · exact .inl ⟨.display, by decide, rfl, rfl⟩
  · exact .inl ⟨.clear, by decide, rfl, rfl⟩
  · exact .inl ⟨.readbusy, by decide, rfl, rfl⟩
  · exact .inl ⟨.sleep, by decide, rfl, rfl⟩
  · exact .inl ⟨.sendcmd, by decide, rfl, rfl⟩
  · exact .inl ⟨.senddata, by decide, rfl, rfl⟩
  · exact .inl ⟨.sendbuf, by decide, rfl, rfl⟩
  · exact .inl ⟨.encode, by decide, rfl, rfl⟩
  · exact .inr ⟨.inr (by decide), rfl⟩
  · exact .inr ⟨.inr (by decide), rfl⟩
  · exact .inr ⟨.inr (by decide), rfl⟩
  · exact .inr ⟨.inr (by decide), rfl⟩
  · exact .inr ⟨.inr (by decide), rfl⟩

/-- No step from rst_n at 1. -/
theorem quiet_inReset {s : State} (h : s.quiet) : s.inReset = false := by
  unfold State.inReset
  cases hr : s.rstIn with
  | nil => rfl
  | cons v l =>
    have : v = true := h v (by simp [hr])
    simp [this]

/-- rst_n stays 1 when one level has been taken. -/
theorem quiet_of_tail {s t : State} (h : s.quiet) (ht : t.rstIn = s.rstIn.tail) : t.quiet := by
  intro v hv
  rw [ht] at hv
  exact h v (List.mem_of_mem_tail hv)

/-- A run of no step stays. -/
theorem reaches_zero (s : State) : Reaches 0 s s := rfl

/-- The first step of a run of any machine. -/
theorem run_succ_iff (M : Host.Core) (n : Nat) (s u : M.State) :
    Host.Core.run M (n + 1) s = .next u ↔ ∃ t, M.step s = .next t ∧ Host.Core.run M n t = .next u := by
  rw [Host.Core.run.eq_2]
  cases h : M.step s with
  | next v => simp
  | fault r => simp
  | refused r => simp

/-- The first step of a run. -/
theorem reaches_succ_iff {n : Nat} {s u : State} :
    Reaches (n + 1) s u ↔ ∃ t, step s = .next t ∧ Reaches n t u :=
  run_succ_iff core n s u

/-- A run starts with a step. -/
theorem reaches_succ {n : Nat} {s t u : State} (h : step s = .next t) (hr : Reaches n t u) : Reaches (n + 1) s u :=
  reaches_succ_iff.mpr ⟨t, h, hr⟩

/-- Runs join. -/
theorem reaches_add {m n : Nat} {s t u : State} (h1 : Reaches m s t) (h2 : Reaches n t u) : Reaches (m + n) s u := by
  induction m generalizing s with
  | zero => cases h1; simpa using h2
  | succ m ih =>
    obtain ⟨v, hs, hv⟩ := reaches_succ_iff.mp h1
    rw [Nat.succ_add_eq_add_succ, Nat.add_succ]
    exact reaches_succ hs (ih hv)

/-- A run of as many steps, counted otherwise. -/
theorem reaches_cast {m n : Nat} {s t : State} (h : Reaches m s t) (e : m = n) : Reaches n s t := e ▸ h

/-- One step of a running sequencer as a run. -/
theorem reaches_row {s : State} {r : Row} (hq : s.quiet) (hop : s.op ≠ .idle) (hrow : s.row? = some r) :
    Reaches 1 s (s.tick.rowStep r) :=
  reaches_succ (step_running (quiet_inReset hq) hop hrow) (reaches_zero _)

/-- `u` agrees with `s` on all that a frame's bytes can depend on, and on the counters while its SUB is 0. -/
structure SameOperands (s u : State) : Prop where
  op : u.op = s.op
  arg : u.arg = s.arg
  len0 : u.len0 = s.len0
  len1 : u.len1 = s.len1
  dlen : u.dlen = s.dlen
  bytes : ∀ b k, u.bufByte b k = s.bufByte b k
  idx : u.seq.idx = s.seq.idx
  sub : u.seq.sub = 0#2 → s.seq.sub = 0#2

/-- Agreement on the operands goes on. -/
theorem SameOperands.trans {s t u : State} (h : SameOperands s t) (k : SameOperands t u) : SameOperands s u where
  op := k.op.trans h.op
  arg := k.arg.trans h.arg
  len0 := k.len0.trans h.len0
  len1 := k.len1.trans h.len1
  dlen := k.dlen.trans h.dlen
  bytes := fun b i => (k.bytes b i).trans (h.bytes b i)
  idx := k.idx.trans h.idx
  sub := fun e => h.sub (k.sub e)

/-- A frame that has made its transfer, from wherever in the frame `s` stands, as its fourth step finds it: `bs` has result
`x`, after `p` asks without an answer. -/
def atClose (dc : Level) (bs : List Byte) (x : XferResult) (p : Nat) (s : State) : State :=
  { s with
    done := false
    rstIn := s.rstIn.drop (4 - s.seq.sub.toNat + p)
    dcL := if s.seq.sub = 0#2 then dc else s.dcL
    csL := if s.seq.sub.toNat ≤ 1 then false else s.csL
    trace := s.trace ++ ([.pin .dc dc, .pin .cs false, .xfer bs x] : List Event).drop s.seq.sub.toNat
    xferIn := s.xferIn.drop (if s.seq.sub = 3#2 then 0 else p + 1)
    xferDrawn := s.xferDrawn + (if s.seq.sub = 3#2 then 0 else p + 1)
    seq := { s.seq with sub := 3#2, xfail := x == .fail } }

/-- The row is one whose steps, while the operands stay, are those of a frame. -/
abbrev FrameRow (dc : Level) (bs : List Byte) (fin : State → State) (r : Row) (s : State) : Prop :=
  ∀ u : State, SameOperands s u → u.rowStep r = u.frameStep dc bs fin

/-- One step inside a frame: a step of its frame row, from a state that may have moved on within the frame. -/
theorem frame_step {dc : Level} {bs : List Byte} {fin : State → State} {r : Row} {s : State} (hq : s.quiet)
    (hop : s.op ≠ .idle) (hrow : s.row? = some r) (hf : FrameRow dc bs fin r s) :
    step s = .next (s.tick.frameStep dc bs fin) := by
  rw [step_running (quiet_inReset hq) hop hrow, hf s.tick ⟨rfl, rfl, rfl, rfl, rfl, fun _ _ => rfl, rfl, fun h => h⟩]

/-- A move within a frame: the row is the same, and its steps are still those of the frame. -/
theorem frame_move {dc : Level} {bs : List Byte} {fin : State → State} {r : Row} {s u : State} (hop : s.op ≠ .idle)
    (hrow : s.row? = some r) (hf : FrameRow dc bs fin r s) (h : SameOperands s u) (hph : u.seq.ph = s.seq.ph) :
    u.op ≠ .idle ∧ u.row? = some r ∧ FrameRow dc bs fin r u :=
  ⟨by rwa [h.op], by rw [← hrow, State.row?, State.row?, h.op, hph], fun _ hv => hf _ (h.trans hv)⟩

/-- SUB 3 of a frame: its fourth step. -/
theorem reaches_close_of_three {dc : Level} {bs : List Byte} {fin : State → State} {r : Row} {s : State}
    {x : XferResult} (hq : s.quiet) (hop : s.op ≠ .idle) (hrow : s.row? = some r) (hf : FrameRow dc bs fin r s)
    (hs : s.seq.sub = 3#2) (hx : s.seq.xfail = (x == .fail)) : Reaches 1 s ((atClose dc bs x 0 s).closeFrame fin) := by
  refine reaches_succ (frame_step hq hop hrow hf) ?_
  have e : s.tick.frameStep dc bs fin = s.tick.closeFrame fin := by simp [State.frameStep, hs]
  have q : ({ s.seq with sub := 3#2, xfail := x == .fail } : SeqRegs) = s.seq := by rw [← hs, ← hx]
  have e2 : atClose dc bs x 0 s = s.tick := by
    unfold atClose
    rw [q]
    simp [State.tick, hs, List.drop_one]
  rw [e, e2]
  exact reaches_zero _

/-- SUB 2 of a frame: the asks without an answer, the transfer, and the fourth step. -/
theorem reaches_close_of_two {dc : Level} {bs : List Byte} {fin : State → State} {r : Row} {s : State}
    {x : XferResult} {p : Nat} (hq : s.quiet) (hop : s.op ≠ .idle) (hrow : s.row? = some r)
    (hf : FrameRow dc bs fin r s) (hs : s.seq.sub = 2#2) (hg : s.answered 0 p x) :
    Reaches (p + 2) s ((atClose dc bs x p s).closeFrame fin) := by
  induction p generalizing s with
  | zero =>
    have hx : s.tick.xferAt 0 = .answer x := hg.2
    have e1 := frame_step hq hop hrow hf
    simp only [State.frameStep, tick_seq, hs, State.transferStep, hx] at e1
    have hm : SameOperands s ((s.tick.popXfer.emit (.xfer bs x)).withSeq
        { (s.tick.popXfer.emit (.xfer bs x)).seq with sub := 3#2, xfail := x == .fail }) :=
      ⟨by simp, by simp, by simp, by simp, by simp, bufByte_congr (by simp) (by simp) (by simp) (by simp), by simp, by simp⟩
    obtain ⟨ho1, hr1, hf1⟩ := frame_move hop hrow hf hm (by simp)
    have h := reaches_succ e1 (reaches_close_of_three (x := x) (quiet_of_tail hq (by simp)) ho1 hr1 hf1 (by simp) (by simp))
    convert h using 2
    simp [atClose, hs, State.tick, State.emit, State.withSeq, State.popXfer, List.drop_one, List.drop_tail]
  | succ p ih =>
    have hx : s.tick.xferAt 0 = .pending := hg.1 0 (by omega)
    have e1 := frame_step hq hop hrow hf
    simp only [State.frameStep, tick_seq, hs, State.transferStep, hx] at e1
    have hm : SameOperands s s.tick.popXfer :=
      ⟨by simp, by simp, by simp, by simp, by simp, bufByte_congr (by simp) (by simp) (by simp) (by simp), by simp, by simp⟩
    obtain ⟨ho1, hr1, hf1⟩ := frame_move hop hrow hf hm (by simp)
    have hg1 : s.tick.popXfer.answered 0 p x := by
      have hk : ∀ k, s.tick.popXfer.xferAt (0 + k) = s.xferAt (0 + (k + 1)) := fun k => by
        rw [Nat.zero_add, Nat.zero_add]
        exact xferAt_popXfer s.tick k
      exact ⟨fun k hlt => (hk k).trans (hg.1 _ (by omega)), (hk p).trans hg.2⟩
    have h := reaches_succ e1 (ih (quiet_of_tail hq (by simp)) ho1 hr1 hf1 (by simpa using hs) hg1)
    rw [show p + 1 + 2 = p + 2 + 1 by omega]
    convert h using 2
    simp [atClose, hs, State.tick, State.popXfer, List.drop_tail]
    omega

/-- A frame, from wherever it stands, up to and with its fourth step. -/
theorem reaches_close {dc : Level} {bs : List Byte} {fin : State → State} {r : Row} {s : State} {x : XferResult} {p : Nat}
    (hq : s.quiet) (hop : s.op ≠ .idle) (hrow : s.row? = some r) (hf : FrameRow dc bs fin r s) (hg : s.frameGets p x) :
    Reaches (4 - s.seq.sub.toNat + p) s ((atClose dc bs x p s).closeFrame fin) := by
  have one : ∀ s : State, s.quiet → s.op ≠ .idle → s.row? = some r → FrameRow dc bs fin r s → s.seq.sub = 1#2 →
      s.answered 0 p x → Reaches (p + 3) s ((atClose dc bs x p s).closeFrame fin) := by
    intro s hq hop hrow hf hs hg
    have e1 := frame_step hq hop hrow hf
    rw [show s.tick.frameStep dc bs fin = (s.tick.pin .cs false).withSub 2#2 by simp [State.frameStep, hs]] at e1
    have hm : SameOperands s ((s.tick.pin .cs false).withSub 2#2) :=
      ⟨by simp, by simp, by simp, by simp, by simp, bufByte_congr (by simp) (by simp) (by simp) (by simp), by simp, by simp⟩
    obtain ⟨ho1, hr1, hf1⟩ := frame_move hop hrow hf hm (by simp)
    have h := reaches_succ e1 (reaches_close_of_two (x := x) (p := p) (quiet_of_tail hq (by simp)) ho1 hr1 hf1 (by simp)
      (by simpa only [State.answered, xferAt_congr (s := s) (t := (s.tick.pin .cs false).withSub 2#2) (by simp) (by simp)]
        using hg))
    convert h using 2
    simp [atClose, hs, State.tick, State.pin, State.setLatch, State.emit, State.withSub, State.withSeq, List.drop_tail]
    omega
  have h4 : ∀ b : BitVec 2, b = 0#2 ∨ b = 1#2 ∨ b = 2#2 ∨ b = 3#2 := by decide
  rcases h4 s.seq.sub with hs | hs | hs | hs
  · have hg' : s.answered 0 p x := by simpa [State.frameGets, hs] using hg
    have e1 := frame_step hq hop hrow hf
    rw [show s.tick.frameStep dc bs fin = (s.tick.pin .dc dc).withSub 1#2 by simp [State.frameStep, hs]] at e1
    have hm : SameOperands s ((s.tick.pin .dc dc).withSub 1#2) :=
      ⟨by simp, by simp, by simp, by simp, by simp, bufByte_congr (by simp) (by simp) (by simp) (by simp), by simp,
        fun _ => hs⟩
    obtain ⟨ho1, hr1, hf1⟩ := frame_move hop hrow hf hm (by simp)
    have h := reaches_succ e1 (one _ (quiet_of_tail hq (by simp)) ho1 hr1 hf1 (by simp)
      (by simpa only [State.answered, xferAt_congr (s := s) (t := (s.tick.pin .dc dc).withSub 1#2) (by simp) (by simp)]
        using hg'))
    rw [hs]
    refine reaches_cast ?_ (show p + 3 + 1 = 4 - (0#2).toNat + p by simp; omega)
    convert h using 2
    simp [atClose, hs, State.tick, State.pin, State.setLatch, State.emit, State.withSub, State.withSeq, List.drop_tail]
    omega
  · rw [hs]
    exact reaches_cast (one s hq hop hrow hf hs (by simpa [State.frameGets, hs] using hg)) (by simp; omega)
  · rw [hs]
    exact reaches_cast (reaches_close_of_two hq hop hrow hf hs (by simpa [State.frameGets, hs] using hg)) (by simp; omega)
  · obtain ⟨rfl, hx⟩ : p = 0 ∧ s.seq.xfail = (x == .fail) := by simpa [State.frameGets, hs] using hg
    rw [hs]
    exact reaches_cast (reaches_close_of_three hq hop hrow hf hs hx) rfl

/-- A good frame, from wherever it stands, to its end. -/
theorem reaches_good {dc : Level} {bs : List Byte} {fin : State → State} {r : Row} {s : State} {p : Nat}
    (hq : s.quiet) (hop : s.op ≠ .idle) (hrow : s.row? = some r) (hf : FrameRow dc bs fin r s) (hg : s.frameGets p .ok) :
    Reaches (4 - s.seq.sub.toNat + p) s (fin ((atClose dc bs .ok p s).pin .cs true)) := by
  simpa [State.closeFrame, atClose] using reaches_close hq hop hrow hf hg

/-- A failed frame, from wherever it stands, to the `Ret` of its failure, which is a step of its own. -/
theorem reaches_failed {dc : Level} {bs : List Byte} {fin : State → State} {r : Row} {s : State} {p : Nat}
    (hq : s.quiet) (hop : s.op ≠ .idle) (hrow : s.row? = some r) (hf : FrameRow dc bs fin r s)
    (hg : s.frameGets p .fail) (hc : 2 ≤ s.seq.sub.toNat → s.csL = false) :
    Reaches (5 - s.seq.sub.toNat + p) s
      (((atClose dc bs .fail p s).pin .cs true).tick.raise s.op.code .transferFailure) := by
  have h := reaches_close hq hop hrow hf hg
  have hcs : (atClose dc bs .fail p s).csL = false := by
    by_cases hle : s.seq.sub.toNat ≤ 1
    · simp [atClose, hle]
    · simp [atClose, hle, hc (by omega)]
  have e : (atClose dc bs .fail p s).closeFrame fin = (atClose dc bs .fail p s).pin .cs true := by
    rw [State.closeFrame, if_pos (by simp [atClose]), if_neg (by simp [hcs])]
  rw [e] at h
  have hm : SameOperands s ((atClose dc bs .fail p s).pin .cs true) :=
    ⟨by simp [atClose], by simp [atClose], by simp [atClose], by simp [atClose], by simp [atClose],
      bufByte_congr (by simp [atClose]) (by simp [atClose]) (by simp [atClose]) (by simp [atClose]), by simp [atClose],
      by simp [atClose]⟩
  obtain ⟨ho1, hr1, hf1⟩ := frame_move hop hrow hf hm (by simp [atClose])
  have hq1 : ((atClose dc bs .fail p s).pin .cs true).quiet := fun v hv => hq v (List.mem_of_mem_drop (by simpa [atClose] using hv))
  have e1 := frame_step hq1 ho1 hr1 hf1
  have e2 : ((atClose dc bs .fail p s).pin .cs true).tick.frameStep dc bs fin =
      ((atClose dc bs .fail p s).pin .cs true).tick.raise s.op.code .transferFailure := by
    simp [State.frameStep, State.closeFrame, atClose]
  rw [e2] at e1
  exact reaches_cast (reaches_add h (reaches_succ e1 (reaches_zero _))) (by have := s.seq.sub.isLt; omega)

/-- A CMD row sends command frames. -/
theorem cmd_frameRow (s : State) (c : CmdForm) : FrameRow false [c.byte s] State.nextPhase (.cmd c) s := by
  intro u hu
  cases c <;> simp [State.rowStep, State.commandStep, CmdForm.byte, hu.arg]

/-- A DATA row sends a data frame of all its bytes. -/
theorem data_frameRow (s : State) (d : DataForm) : FrameRow true (d.bytes s) State.nextPhase (.data d) s := by
  intro u hu
  have hb : u.dbufBytes = s.dbufBytes := by
    unfold State.dbufBytes
    rw [hu.dlen]
    exact List.map_congr_left fun k _ => hu.bytes .dbuf k
  cases d <;> simp [State.rowStep, State.dataStep, DataForm.bytes, hu.arg, hb]

/-- A LOOPDATA row below its count, or inside a frame, sends the data frame of byte IDX. -/
theorem loop_frameRow {s : State} {l : LoopForm} (hi : s.seq.sub = 0#2 → s.seq.idx.toNat < l.count s) :
    FrameRow true [l.byte s s.seq.idx.toNat] State.loopNext (.loopData l) s := by
  intro u hu
  have hc : l.count u = l.count s := by cases l <;> simp [LoopForm.count, hu.len0, hu.len1]
  have hb : l.byte u s.seq.idx.toNat = l.byte s s.seq.idx.toNat := by
    cases l <;> simp [LoopForm.byte, hu.bytes, hu.arg]
  have hn : ¬ (u.seq.sub = 0#2 ∧ l.count u ≤ u.seq.idx.toNat) := by
    rintro ⟨h0, h1⟩
    rw [hc, hu.idx] at h1
    have := hi (hu.sub h0)
    omega
  rw [State.rowStep, State.loopStep, if_neg hn, hu.idx, hb]

end Sys2Proof.Machine
end

