-- ==== Sys2Proof/Laws/Rows.lean ====
section
/-! SUPPORT. Everything the step of a row can do, said once: a claim over all rows is a case analysis of `rowStep_did`. -/

namespace Sys2Proof.Machine

/-- What a scan of one pixel leaves: all but the plane of its destination. -/
theorem scanPixel_eq (s : State) :
    s.scanPixel = s ∨ ∃ k v, k < Config.planeBytes ∧ s.scanPixel = s.setBuf s.dest k v := by
  unfold State.scanPixel
  split
  · dsimp only
    split
    · rename_i hk; exact .inr ⟨_, _, hk, rfl⟩
    · exact .inl rfl
  · exact .inl rfl

/-- The level of DC a frame of a row writes. -/
def Row.dcLevel : Row → Level
  | .cmd _ => false
  | _ => true

/-- The bytes a frame of a row transfers. -/
def Row.frameBytes (s : State) : Row → List Byte
  | .cmd c => [c.byte s]
  | .data d => d.bytes s
  | .loopData l => [l.byte s s.seq.idx.toNat]
  | _ => []

/-- A row that is not a LOOPDATA row at its count. -/
def Row.more (r : Row) (s : State) : Prop :=
  match r with
  | .loopData l => s.seq.sub = 0#2 → s.seq.idx.toNat < l.count s
  | _ => True

/-- What the step of row `r` in state `s` can do. -/
inductive RowDid (s : State) : Row → State → Prop
  | acqGpio : RowDid s (.acq .gpio) ((s.withGpio true).emit (.acq .gpio)).nextPhase
  | acqSpi : RowDid s (.acq .spi) ((s.withSpi true).emit (.acq .spi)).nextPhase
  | relSpi : RowDid s .relSpi ((s.withSpi false).emit .relSpi).nextPhase
  | pin (p : OutPin) (v : Level) : RowDid s (.pin p v) (s.pin p v).nextPhase
  | delay (d : Nat) : RowDid s (.delay d) (s.emit (.delay d)).nextPhase
  | setState (st : Session) : RowDid s (.setState st) (s.withSession st).nextPhase
  | dc (r : Row) (hr : r.sendsFrames = true) (hm : r.more s) (hs : s.seq.sub = 0#2) :
      RowDid s r ((s.pin .dc r.dcLevel).withSub 1#2)
  | cs (r : Row) (hr : r.sendsFrames = true) (hm : r.more s) (hs : s.seq.sub = 1#2) :
      RowDid s r ((s.pin .cs false).withSub 2#2)
  | pending (r : Row) (hr : r.sendsFrames = true) (hm : r.more s) (hs : s.seq.sub = 2#2) (hx : s.xferAt 0 = .pending) :
      RowDid s r s.popXfer
  | transfer (r : Row) (x : XferResult) (hr : r.sendsFrames = true) (hm : r.more s) (hs : s.seq.sub = 2#2)
      (hx : s.xferAt 0 = .answer x) :
      RowDid s r ((s.popXfer.emit (.xfer (r.frameBytes s) x)).withSeq { s.seq with sub := 3#2, xfail := x == .fail })
  | deselect (r : Row) (hr : r.sendsFrames = true) (hm : r.more s) (hs : s.seq.sub = 3#2) (hx : s.seq.xfail = true)
      (hc : s.csL = false) : RowDid s r (s.pin .cs true)
  | failed (r : Row) (hr : r.sendsFrames = true) (hm : r.more s) (hs : s.seq.sub = 3#2) (hx : s.seq.xfail = true)
      (hc : s.csL = true) : RowDid s r (s.raise s.op.code .transferFailure)
  | cmdEnd (c : CmdForm) (hs : s.seq.sub = 3#2) (hx : s.seq.xfail = false) :
      RowDid s (.cmd c) (s.pin .cs true).nextPhase
  | dataEnd (d : DataForm) (hs : s.seq.sub = 3#2) (hx : s.seq.xfail = false) :
      RowDid s (.data d) (s.pin .cs true).nextPhase
  | byteEnd (l : LoopForm) (hs : s.seq.sub = 3#2) (hx : s.seq.xfail = false) :
      RowDid s (.loopData l) (s.pin .cs true).loopNext
  | loopEnd (l : LoopForm) (hs : s.seq.sub = 0#2) (hl : l.count s ≤ s.seq.idx.toNat) :
      RowDid s (.loopData l) s.nextPhase
  | released (hs : s.seq.sub = 0#2) (hb : s.busyAt 0 = true) : RowDid s .waitBusy (s.popBusy.sampled true).nextPhase
  | busy (hs : s.seq.sub = 0#2) (hb : s.busyAt 0 = false) : RowDid s .waitBusy ((s.popBusy.sampled false).withSub 1#2)
  | poll (hs : s.seq.sub ≠ 0#2) : RowDid s .waitBusy ((s.emit (.delay Config.tBusyPoll)).withSub 0#2)
  | fillByte (hi : s.seq.idx.toNat < Config.planeBytes) :
      RowDid s .fill ((s.setBuf s.dest s.seq.idx.toNat 0xFF#8).withSeq
        { s.seq with idx := s.seq.idx + 1#16, stride := BitVec.ofNat 8 (packStride s.rw) })
  | fillEnd (hi : Config.planeBytes ≤ s.seq.idx.toNat) :
      RowDid s .fill (s.withSeq { s.seq with ph := s.seq.ph + 1#6, sub := 0#2, idx := 0#16, y := 0#8, x := 0#7 })
  | scanX (hx : s.seq.x.toNat + 1 < Config.height) :
      RowDid s .scan (s.scanPixel.withSeq { s.seq with x := s.seq.x + 1#7 })
  | scanY (hx : Config.height ≤ s.seq.x.toNat + 1) (hy : s.seq.y.toNat + 1 < Config.width) :
      RowDid s .scan (s.scanPixel.withSeq { s.seq with x := 0#7, y := s.seq.y + 1#8 })
  | scanEnd (hx : Config.height ≤ s.seq.x.toNat + 1) (hy : Config.width ≤ s.seq.y.toNat + 1) :
      RowDid s .scan s.scanPixel.nextPhase
  | setLen : RowDid s .setLen (s.setLen s.dest (BitVec.ofNat 16 Config.planeBytes)).nextPhase
  | finish : RowDid s .finish s.finish

/-- What one sub-step of the frames of a row can do; `hend` says how a good one ends. -/
theorem frameStep_did {r : Row} {s : State} {fin : State → State} (hr : r.sendsFrames = true) (hm : r.more s)
    (hend : s.seq.sub = 3#2 → s.seq.xfail = false → RowDid s r (fin (s.pin .cs true))) :
    RowDid s r (s.frameStep r.dcLevel (r.frameBytes s) fin) := by
  rcases frameStep_cases r.dcLevel (r.frameBytes s) fin s with
    ⟨hs, h⟩ | ⟨hs, h⟩ | ⟨hs, hx, h⟩ | ⟨x, hs, hx, h⟩ | ⟨hs, hx, hc, h⟩ | ⟨hs, hx, hc, h⟩ | ⟨hs, hx, h⟩ <;>
      rw [h]
  · exact .dc r hr hm hs
  · exact .cs r hr hm hs
  · exact .pending r hr hm hs hx
  · exact .transfer r x hr hm hs hx
  · exact .deselect r hr hm hs hx hc
  · exact .failed r hr hm hs hx hc
  · exact hend hs hx

/-- A scan of one pixel leaves the counters. -/
@[simp] theorem scanPixel_seq (s : State) : s.scanPixel.seq = s.seq := by
  rcases scanPixel_eq s with h | ⟨k, v, -, h⟩ <;> rw [h]
  exact setBuf_seq _ _ _ _

/-- Every step of a row is one of these. -/
theorem rowStep_did (r : Row) (s : State) : RowDid s r (s.rowStep r) := by
  cases r with
  | acq h => cases h <;> constructor
  | relSpi => constructor
  | pin p v => constructor
  | delay d => constructor
  | cmd c => exact frameStep_did (r := .cmd c) rfl trivial (.cmdEnd c)
  | data d => exact frameStep_did (r := .data d) rfl trivial (.dataEnd d)
  | loopData l =>
    rw [State.rowStep, State.loopStep]
    split
    · rename_i h; exact .loopEnd l h.1 h.2
    · rename_i h
      exact frameStep_did (r := .loopData l) rfl (fun hs => Nat.lt_of_not_le fun hl => h ⟨hs, hl⟩) (.byteEnd l)
  | waitBusy =>
    rw [State.rowStep, State.waitStep]
    split
    · rename_i hs
      cases hb : s.busyAt 0
      · exact .busy hs hb
      · exact .released hs hb
    · rename_i hs; exact .poll hs
  | setState st => constructor
  | fill =>
    rw [State.rowStep, State.fillStep]
    split
    · rename_i h
      have := RowDid.fillByte h
      simpa using this
    · rename_i h; exact .fillEnd (by omega)
  | scan =>
    rw [State.rowStep, State.scanStep, State.scanNext, scanPixel_seq]
    split
    · rename_i hx; exact .scanX hx
    · split
      · rename_i hx hy; exact .scanY (by omega) hy
      · rename_i hx hy; exact .scanEnd (by omega) (by omega)
  | setLen => constructor
  | finish => constructor

/-- ENCODE's destination is a plane. -/
theorem dest_cases (s : State) : s.dest = .plane0 ∨ s.dest = .plane1 := by
  unfold State.dest
  split
  · exact .inr rfl
  · exact .inl rfl

/-- What a request does to an idle block. -/
theorem exec_request_idle {w : BitVec 12} {s t : State} (hi : s.op = .idle)
    (h : exec (decodeRequest w) s = .next t) :
    (∃ x, t = (s.withArg (reqArg w)).raise (reqOp w) x) ∨
    (∃ op, op ≠ .idle ∧ valid op s.session = true ∧ t = (s.withArg (reqArg w)).start op) := by
  rcases exec_request w s with ⟨op, ho, hc, he⟩ | ⟨-, he⟩
  · rw [he] at h
    cases h
    rw [← hc]
    rcases accept_cases op (reqArg w) s with ⟨h1, -⟩ | ⟨-, -, h2⟩ | ⟨-, -, -, h2⟩ | ⟨-, hv, -, h2⟩
    · exact absurd hi h1
    · exact .inl ⟨_, h2⟩
    · exact .inl ⟨_, h2⟩
    · exact .inr ⟨op, ho, hv, h2⟩
  · rw [he] at h
    cases h
    exact .inl ⟨.badRequest, by rw [State.rejectReserved, if_pos hi]⟩

end Sys2Proof.Machine
end

