-- ==== Sys2Proof/Laws/Run.lean ====
section
/-! SUPPORT. Runs through a phase table, row by row: where the sequencer stands after some rows, what it has emitted, how
many answers it has taken, and what it has left alone. A whole operation is a chain of these lemmas. -/

namespace Sys2Proof.Machine

/-- The session, the handles, the latches and LASTBUSY of a state. -/
structure View where
  session : Session
  gpio : Bool
  spi : Bool
  rst : Level
  dc : Level
  cs : Level
  last : Level

/-- The view of a state. -/
def State.view (s : State) : View where
  session := s.session
  gpio := s.gpioOpen
  spi := s.spiOpen
  rst := s.rstL
  dc := s.dcL
  cs := s.csL
  last := s.lastBusy

/-- Write a latch in a view. -/
def View.latch (r : OutPin) (l : Level) (v : View) : View :=
  match r with
  | .rst => { v with rst := l }
  | .dc => { v with dc := l }
  | .cs => { v with cs := l }

/-- A frame with the given level of DC was sent. -/
def View.framed (l : Level) (v : View) : View := { v with dc := l, cs := true }

/-- `n` data frames were sent. -/
def View.looped (n : Nat) (v : View) : View := { v with dc := v.dc || decide (n ≠ 0), cs := v.cs || decide (n ≠ 0) }

/-- BUSY was read as 1. -/
def View.released (v : View) : View := { v with last := true }

/-- The GPIO handle was acquired. -/
def View.gpioHeld (v : View) : View := { v with gpio := true }

/-- The SPI handle was acquired or released. -/
def View.spiHeld (b : Bool) (v : View) : View := { v with spi := b }

/-- The session state was set. -/
def View.inSession (st : Session) (v : View) : View := { v with session := st }

@[simp] theorem View.framed_session (l : Level) (v : View) : (v.framed l).session = v.session := rfl
@[simp] theorem View.framed_gpio (l : Level) (v : View) : (v.framed l).gpio = v.gpio := rfl
@[simp] theorem View.framed_spi (l : Level) (v : View) : (v.framed l).spi = v.spi := rfl
@[simp] theorem View.framed_rst (l : Level) (v : View) : (v.framed l).rst = v.rst := rfl
@[simp] theorem View.framed_dc (l : Level) (v : View) : (v.framed l).dc = l := rfl
@[simp] theorem View.framed_cs (l : Level) (v : View) : (v.framed l).cs = true := rfl
@[simp] theorem View.framed_last (l : Level) (v : View) : (v.framed l).last = v.last := rfl
@[simp] theorem View.looped_session (n : Nat) (v : View) : (v.looped n).session = v.session := rfl
@[simp] theorem View.looped_gpio (n : Nat) (v : View) : (v.looped n).gpio = v.gpio := rfl
@[simp] theorem View.looped_spi (n : Nat) (v : View) : (v.looped n).spi = v.spi := rfl
@[simp] theorem View.looped_rst (n : Nat) (v : View) : (v.looped n).rst = v.rst := rfl
@[simp] theorem View.looped_dc (n : Nat) (v : View) : (v.looped n).dc = (v.dc || decide (n ≠ 0)) := rfl
@[simp] theorem View.looped_cs (n : Nat) (v : View) : (v.looped n).cs = (v.cs || decide (n ≠ 0)) := rfl
@[simp] theorem View.looped_last (n : Nat) (v : View) : (v.looped n).last = v.last := rfl
@[simp] theorem View.released_session (v : View) : (v.released).session = v.session := rfl
@[simp] theorem View.released_gpio (v : View) : (v.released).gpio = v.gpio := rfl
@[simp] theorem View.released_spi (v : View) : (v.released).spi = v.spi := rfl
@[simp] theorem View.released_rst (v : View) : (v.released).rst = v.rst := rfl
@[simp] theorem View.released_dc (v : View) : (v.released).dc = v.dc := rfl
@[simp] theorem View.released_cs (v : View) : (v.released).cs = v.cs := rfl
@[simp] theorem View.released_last (v : View) : (v.released).last = true := rfl
@[simp] theorem View.gpioHeld_session (v : View) : (v.gpioHeld).session = v.session := rfl
@[simp] theorem View.gpioHeld_gpio (v : View) : (v.gpioHeld).gpio = true := rfl
@[simp] theorem View.gpioHeld_spi (v : View) : (v.gpioHeld).spi = v.spi := rfl
@[simp] theorem View.gpioHeld_rst (v : View) : (v.gpioHeld).rst = v.rst := rfl
@[simp] theorem View.gpioHeld_dc (v : View) : (v.gpioHeld).dc = v.dc := rfl
@[simp] theorem View.gpioHeld_cs (v : View) : (v.gpioHeld).cs = v.cs := rfl
@[simp] theorem View.gpioHeld_last (v : View) : (v.gpioHeld).last = v.last := rfl
@[simp] theorem View.spiHeld_session (b : Bool) (v : View) : (v.spiHeld b).session = v.session := rfl
@[simp] theorem View.spiHeld_gpio (b : Bool) (v : View) : (v.spiHeld b).gpio = v.gpio := rfl
@[simp] theorem View.spiHeld_spi (b : Bool) (v : View) : (v.spiHeld b).spi = b := rfl
@[simp] theorem View.spiHeld_rst (b : Bool) (v : View) : (v.spiHeld b).rst = v.rst := rfl
@[simp] theorem View.spiHeld_dc (b : Bool) (v : View) : (v.spiHeld b).dc = v.dc := rfl
@[simp] theorem View.spiHeld_cs (b : Bool) (v : View) : (v.spiHeld b).cs = v.cs := rfl
@[simp] theorem View.spiHeld_last (b : Bool) (v : View) : (v.spiHeld b).last = v.last := rfl
@[simp] theorem View.inSession_session (st : Session) (v : View) : (v.inSession st).session = st := rfl
@[simp] theorem View.inSession_gpio (st : Session) (v : View) : (v.inSession st).gpio = v.gpio := rfl
@[simp] theorem View.inSession_spi (st : Session) (v : View) : (v.inSession st).spi = v.spi := rfl
@[simp] theorem View.inSession_rst (st : Session) (v : View) : (v.inSession st).rst = v.rst := rfl
@[simp] theorem View.inSession_dc (st : Session) (v : View) : (v.inSession st).dc = v.dc := rfl
@[simp] theorem View.inSession_cs (st : Session) (v : View) : (v.inSession st).cs = v.cs := rfl
@[simp] theorem View.inSession_last (st : Session) (v : View) : (v.inSession st).last = v.last := rfl
@[simp] theorem View.latch_rst_session (l : Level) (v : View) : (v.latch .rst l).session = v.session := rfl
@[simp] theorem View.latch_rst_gpio (l : Level) (v : View) : (v.latch .rst l).gpio = v.gpio := rfl
@[simp] theorem View.latch_rst_spi (l : Level) (v : View) : (v.latch .rst l).spi = v.spi := rfl
@[simp] theorem View.latch_rst_rst (l : Level) (v : View) : (v.latch .rst l).rst = l := rfl
@[simp] theorem View.latch_rst_dc (l : Level) (v : View) : (v.latch .rst l).dc = v.dc := rfl
@[simp] theorem View.latch_rst_cs (l : Level) (v : View) : (v.latch .rst l).cs = v.cs := rfl
@[simp] theorem View.latch_rst_last (l : Level) (v : View) : (v.latch .rst l).last = v.last := rfl
@[simp] theorem View.latch_dc_session (l : Level) (v : View) : (v.latch .dc l).session = v.session := rfl
@[simp] theorem View.latch_dc_gpio (l : Level) (v : View) : (v.latch .dc l).gpio = v.gpio := rfl
@[simp] theorem View.latch_dc_spi (l : Level) (v : View) : (v.latch .dc l).spi = v.spi := rfl
@[simp] theorem View.latch_dc_rst (l : Level) (v : View) : (v.latch .dc l).rst = v.rst := rfl
@[simp] theorem View.latch_dc_dc (l : Level) (v : View) : (v.latch .dc l).dc = l := rfl
@[simp] theorem View.latch_dc_cs (l : Level) (v : View) : (v.latch .dc l).cs = v.cs := rfl
@[simp] theorem View.latch_dc_last (l : Level) (v : View) : (v.latch .dc l).last = v.last := rfl
@[simp] theorem View.latch_cs_session (l : Level) (v : View) : (v.latch .cs l).session = v.session := rfl
@[simp] theorem View.latch_cs_gpio (l : Level) (v : View) : (v.latch .cs l).gpio = v.gpio := rfl
@[simp] theorem View.latch_cs_spi (l : Level) (v : View) : (v.latch .cs l).spi = v.spi := rfl
@[simp] theorem View.latch_cs_rst (l : Level) (v : View) : (v.latch .cs l).rst = v.rst := rfl
@[simp] theorem View.latch_cs_dc (l : Level) (v : View) : (v.latch .cs l).dc = v.dc := rfl
@[simp] theorem View.latch_cs_cs (l : Level) (v : View) : (v.latch .cs l).cs = l := rfl
@[simp] theorem View.latch_cs_last (l : Level) (v : View) : (v.latch .cs l).last = v.last := rfl

@[simp] theorem view_session (s : State) : s.view.session = s.session := rfl
@[simp] theorem view_gpio (s : State) : s.view.gpio = s.gpioOpen := rfl
@[simp] theorem view_spi (s : State) : s.view.spi = s.spiOpen := rfl
@[simp] theorem view_rst (s : State) : s.view.rst = s.rstL := rfl
@[simp] theorem view_dc (s : State) : s.view.dc = s.dcL := rfl
@[simp] theorem view_cs (s : State) : s.view.cs = s.csL := rfl
@[simp] theorem view_last (s : State) : s.view.last = s.lastBusy := rfl

/-- `t` stands at row `ph` of `op`, SUB 0, IDX `i`, `es` emitted since `s`, `nx` SPI answers and `nb` BUSY samples taken, the
operands and buffers those of `s`, the view `v`. -/
structure At (s : State) (op : Op) (ph i nx nb : Nat) (es : List Event) (v : View) (t : State) : Prop where
  op : t.op = op
  ph : t.seq.ph.toNat = ph
  sub : t.seq.sub = 0#2
  idx : t.seq.idx.toNat = i
  quiet : t.quiet
  trace : t.trace = s.trace ++ es
  xfer : ∀ k, t.xferAt k = s.xferAt (nx + k)
  busy : ∀ k, t.busyAt k = s.busyAt (nb + k)
  arg : t.arg = s.arg
  len0 : t.len0 = s.len0
  len1 : t.len1 = s.len1
  dlen : t.dlen = s.dlen
  bytes : ∀ b k, t.bufByte b k = s.bufByte b k
  view : t.view = v

/-- `n` steps from `s` lead to a state that stands so. -/
def Ran (n : Nat) (s : State) (op : Op) (ph i nx nb : Nat) (es : List Event) (v : View) : Prop :=
  ∃ t, Reaches n s t ∧ At s op ph i nx nb es v t

/-- The row a state stands at. -/
theorem At.row {s t : State} {op : Op} {ph i nx nb : Nat} {es : List Event} {v : View}
    (h : At s op ph i nx nb es v t) :
    t.row? = (phaseTable op)[ph]? := by
  rw [State.row?, h.op, h.ph]

/-- No table has more than 24 rows. -/
theorem row_lt {op : Op} {ph : Nat} {r : Row} (h : (phaseTable op)[ph]? = some r) : ph < 24 := by
  have hl : (phaseTable op).length ≤ 24 := by cases op <;> decide
  have := (List.getElem?_eq_some_iff.mp h).1
  omega

/-- Only the idle sequencer has no table. -/
theorem row_op {op : Op} {ph : Nat} {r : Row} (h : (phaseTable op)[ph]? = some r) : op ≠ .idle := by
  rintro rfl
  simp [phaseTable] at h

/-- PH of the next row. -/
theorem ph_succ {p : BitVec 6} {ph : Nat} (h : p.toNat = ph) (hl : ph < 24) : (p + 1#6).toNat = ph + 1 := by
  rw [BitVec.toNat_add, h]
  simp
  omega

/-- An accepted operation stands at row 0. -/
theorem ran_zero {s : State} {op : Op} (ho : s.op = op) (hp : s.seq.ph = 0#6) (hs : s.seq.sub = 0#2)
    (hi : s.seq.idx = 0#16) (hq : s.quiet) : Ran 0 s op 0 0 0 0 [] s.view :=
  ⟨s, reaches_zero s, ho, by simp [hp], hs, by simp [hi], hq, by simp, by simp, by simp, rfl, rfl, rfl, rfl, fun _ _ => rfl, rfl⟩

/-- A row of one step that emits `e` and leaves the inputs. -/
theorem Ran.one {n : Nat} {s : State} {op : Op} {ph nx nb : Nat} {es : List Event} {v w : View} {r : Row} {e : List Event}
    (h : Ran n s op ph 0 nx nb es v) (hr : (phaseTable op)[ph]? = some r)
    (hop : ∀ u : State, (u.rowStep r).op = u.op)
    (hseq : ∀ u : State, (u.rowStep r).seq = { u.seq with ph := u.seq.ph + 1#6, sub := 0#2, idx := 0#16 })
    (htr : ∀ u : State, (u.rowStep r).trace = u.trace ++ e)
    (hrest : ∀ u : State, (u.rowStep r).rstIn = u.rstIn ∧ (u.rowStep r).xferIn = u.xferIn ∧
      (u.rowStep r).xferDrawn = u.xferDrawn ∧ (u.rowStep r).busyIn = u.busyIn ∧ (u.rowStep r).busyDrawn = u.busyDrawn ∧
      (u.rowStep r).arg = u.arg ∧ (u.rowStep r).len0 = u.len0 ∧ (u.rowStep r).len1 = u.len1 ∧
      (u.rowStep r).dlen = u.dlen ∧ (u.rowStep r).plane0 = u.plane0 ∧ (u.rowStep r).plane1 = u.plane1 ∧
      (u.rowStep r).dbuf = u.dbuf ∧ (u.rowStep r).epoch = u.epoch)
    (hv : ∀ u : State, u.view = v → (u.rowStep r).view = w) :
    Ran (n + 1) s op (ph + 1) 0 nx nb (es ++ e) w := by
  obtain ⟨t, ht, h⟩ := h
  have hrow : t.row? = some r := by rw [h.row, hr]
  obtain ⟨a1, a2, a3, a4, a5, a6, a7, a8, a9, a10, a11, a12, a13⟩ := hrest t.tick
  refine ⟨t.tick.rowStep r, reaches_add ht (reaches_row h.quiet (by rw [h.op]; exact row_op hr) hrow), ?_⟩
  exact
    { op := by rw [hop]; exact h.op
      ph := by rw [hseq]; exact ph_succ h.ph (row_lt hr)
      sub := by rw [hseq]
      idx := by rw [hseq]; rfl
      quiet := quiet_of_tail h.quiet a1
      trace := by rw [htr, tick_trace, h.trace, List.append_assoc]
      xfer := fun k => by rw [xferAt_congr a2 a3]; exact h.xfer k
      busy := fun k => by rw [busyAt_congr a4 a5]; exact h.busy k
      arg := a6.trans h.arg
      len0 := a7.trans h.len0
      len1 := a8.trans h.len1
      dlen := a9.trans h.dlen
      bytes := fun b k => (bufByte_congr a10 a11 a12 a13 b k).trans (h.bytes b k)
      view := hv _ h.view }

/-- A PIN row. -/
theorem Ran.pin {n : Nat} {s : State} {op : Op} {ph nx nb : Nat} {es : List Event} {v : View} {r : OutPin} {l : Level}
    (h : Ran n s op ph 0 nx nb es v) (hr : (phaseTable op)[ph]? = some (.pin r l)) :
    Ran (n + 1) s op (ph + 1) 0 nx nb (es ++ [.pin r l]) (v.latch r l) :=
  h.one hr (fun u => by simp [State.rowStep, State.pinStep]) (fun u => by simp [State.rowStep, State.pinStep])
    (fun u => by simp [State.rowStep, State.pinStep]) (fun u => by simp [State.rowStep, State.pinStep])
    (fun u hu => by subst hu; cases r <;> rfl)

/-- A DELAY row. -/
theorem Ran.delay {n : Nat} {s : State} {op : Op} {ph nx nb : Nat} {es : List Event} {v : View} {d : Nat}
    (h : Ran n s op ph 0 nx nb es v) (hr : (phaseTable op)[ph]? = some (.delay d)) :
    Ran (n + 1) s op (ph + 1) 0 nx nb (es ++ [.delay d]) v :=
  h.one hr (fun _ => rfl) (fun _ => rfl) (fun _ => rfl) (fun u => by simp [State.rowStep, State.delayStep])
    (fun _ hu => hu)

/-- An ACQ GPIO row. -/
theorem Ran.acqGpio {n : Nat} {s : State} {op : Op} {ph nx nb : Nat} {es : List Event} {v : View}
    (h : Ran n s op ph 0 nx nb es v) (hr : (phaseTable op)[ph]? = some (.acq .gpio)) :
    Ran (n + 1) s op (ph + 1) 0 nx nb (es ++ [.acq .gpio]) v.gpioHeld :=
  h.one hr (fun _ => rfl) (fun _ => rfl) (fun _ => rfl) (fun u => by simp [State.rowStep, State.acqStep])
    (fun _ hu => by subst hu; rfl)

/-- An ACQ SPI row. -/
theorem Ran.acqSpi {n : Nat} {s : State} {op : Op} {ph nx nb : Nat} {es : List Event} {v : View}
    (h : Ran n s op ph 0 nx nb es v) (hr : (phaseTable op)[ph]? = some (.acq .spi)) :
    Ran (n + 1) s op (ph + 1) 0 nx nb (es ++ [.acq .spi]) (v.spiHeld true) :=
  h.one hr (fun _ => rfl) (fun _ => rfl) (fun _ => rfl) (fun u => by simp [State.rowStep, State.acqStep])
    (fun _ hu => by subst hu; rfl)

/-- A REL SPI row. -/
theorem Ran.relSpi {n : Nat} {s : State} {op : Op} {ph nx nb : Nat} {es : List Event} {v : View}
    (h : Ran n s op ph 0 nx nb es v) (hr : (phaseTable op)[ph]? = some .relSpi) :
    Ran (n + 1) s op (ph + 1) 0 nx nb (es ++ [.relSpi]) (v.spiHeld false) :=
  h.one hr (fun _ => rfl) (fun _ => rfl) (fun _ => rfl) (fun u => by simp [State.rowStep, State.relStep])
    (fun _ hu => by subst hu; rfl)

/-- A SETSTATE row: silent. -/
theorem Ran.setState {n : Nat} {s : State} {op : Op} {ph nx nb : Nat} {es : List Event} {v : View} {st : Session}
    (h : Ran n s op ph 0 nx nb es v) (hr : (phaseTable op)[ph]? = some (.setState st)) :
    Ran (n + 1) s op (ph + 1) 0 nx nb es (v.inSession st) := by
  have := h.one (e := []) hr (fun _ => rfl) (fun _ => rfl) (fun u => by simp [State.rowStep, State.setStateStep])
    (fun u => by simp [State.rowStep, State.setStateStep]) (w := (v.inSession st))
    (fun _ hu => by subst hu; rfl)
  rwa [List.append_nil] at this

/-- A good frame of a row whose steps are those of a frame, answered after `p` asks in vain, and which ends with the
counters `q` gives. -/
theorem Ran.frame {n p : Nat} {s : State} {op : Op} {ph ph' i i' nx nb : Nat} {es : List Event} {v : View} {r : Row}
    {dc : Level} {bs : List Byte} {fin : State → State} (q : SeqRegs → SeqRegs)
    (h : Ran n s op ph i nx nb es v) (hr : (phaseTable op)[ph]? = some r) (hx : s.answered nx p .ok)
    (hstep : ∀ t u : State, At s op ph i nx nb es v t → SameOperands t u → u.rowStep r = u.frameStep dc bs fin)
    (hfin : ∀ u : State, fin u = { u with seq := q u.seq })
    (hq : ∀ p : SeqRegs, p.ph.toNat = ph → p.idx.toNat = i →
      (q p).ph.toNat = ph' ∧ (q p).sub = 0#2 ∧ (q p).idx.toNat = i') :
    Ran (n + (4 + p)) s op ph' i' (nx + (p + 1)) nb (es ++ [.pin .dc dc, .pin .cs false, .xfer bs .ok, .pin .cs true])
      (v.framed dc) := by
  obtain ⟨t, ht, h⟩ := h
  have hrow : t.row? = some r := by rw [h.row, hr]
  have hs := h.sub
  have hg : t.frameGets p .ok := by
    have : t.answered 0 p .ok := by
      simpa only [State.answered, h.xfer, Nat.zero_add] using hx
    simpa [State.frameGets, hs] using this
  have hrun := reaches_good h.quiet (by rw [h.op]; exact row_op hr) hrow (fun u hu => hstep t u h hu) hg
  refine ⟨_, reaches_add ht (reaches_cast hrun (by rw [hs]; simp)), ?_⟩
  rw [hfin]
  obtain ⟨q1, q2, q3⟩ := hq ((atClose dc bs .ok p t).pin .cs true).seq (by simpa [atClose] using h.ph)
    (by simpa [atClose] using h.idx)
  exact
    { op := by simpa [atClose] using h.op
      ph := q1
      sub := q2
      idx := q3
      quiet := fun l hl => h.quiet l (List.mem_of_mem_drop (by simpa [atClose] using hl))
      trace := by simp [atClose, h.trace, hs]
      xfer := fun k => by
        rw [xferAt_drop (s := t) (j := p + 1) (by simp [atClose, hs]) (by simp [atClose, hs]), h.xfer, ← Nat.add_assoc]
      busy := fun k => by rw [busyAt_congr (s := t) (by simp [atClose]) (by simp [atClose])]; exact h.busy k
      arg := by simpa [atClose] using h.arg
      len0 := by simpa [atClose] using h.len0
      len1 := by simpa [atClose] using h.len1
      dlen := by simpa [atClose] using h.dlen
      bytes := fun b k => by
        rw [bufByte_congr (s := t) (by simp [atClose]) (by simp [atClose]) (by simp [atClose]) (by simp [atClose])]
        exact h.bytes b k
      view := by
        have hv := h.view
        subst hv
        simp [State.view, View.framed, atClose, hs] }

/-- An answer at the first ask. -/
theorem answered_zero {s : State} {n : Nat} {x : XferResult} (h : s.xferAt n = .answer x) : s.answered n 0 x :=
  ⟨fun _ hk => absurd hk (Nat.not_lt_zero _), h⟩

/-- The counters `nextPhase` gives. -/
theorem next_seq {ph : Nat} (hl : ph < 24) (p : SeqRegs) (hp : p.ph.toNat = ph) :
    ({ p with ph := p.ph + 1#6, sub := 0#2, idx := 0#16 } : SeqRegs).ph.toNat = ph + 1 := ph_succ hp hl

/-- A CMD row. -/
theorem Ran.cmd {n : Nat} {s : State} {op : Op} {ph nx nb : Nat} {es : List Event} {v : View} {c : CmdForm}
    (h : Ran n s op ph 0 nx nb es v) (hr : (phaseTable op)[ph]? = some (.cmd c)) (hx : s.xferAt nx = .answer .ok) :
    Ran (n + 4) s op (ph + 1) 0 (nx + 1) nb (es ++ cmdFrame (c.byte s) .ok) (v.framed false) :=
  h.frame (dc := false) (bs := [c.byte s]) (fin := State.nextPhase)
    (fun p => { p with ph := p.ph + 1#6, sub := 0#2, idx := 0#16 }) hr (answered_zero hx)
    (fun t u ht hu => by
      have ha : u.arg = s.arg := hu.arg.trans ht.arg
      cases c <;> simp [State.rowStep, State.commandStep, CmdForm.byte, ha])
    (fun _ => rfl) (fun p hp _ => ⟨next_seq (row_lt hr) p hp, rfl, rfl⟩)

/-- A DATA row. -/
theorem Ran.data {n : Nat} {s : State} {op : Op} {ph nx nb : Nat} {es : List Event} {v : View} {d : DataForm}
    (h : Ran n s op ph 0 nx nb es v) (hr : (phaseTable op)[ph]? = some (.data d)) (hx : s.xferAt nx = .answer .ok) :
    Ran (n + 4) s op (ph + 1) 0 (nx + 1) nb (es ++ dataFrame (d.bytes s) .ok) (v.framed true) :=
  h.frame (dc := true) (bs := d.bytes s) (fin := State.nextPhase)
    (fun p => { p with ph := p.ph + 1#6, sub := 0#2, idx := 0#16 }) hr (answered_zero hx)
    (fun t u ht hu => by
      have ha : u.arg = s.arg := hu.arg.trans ht.arg
      have hb : u.dbufBytes = s.dbufBytes := by
        unfold State.dbufBytes
        rw [hu.dlen, ht.dlen]
        exact List.map_congr_left fun k _ => (hu.bytes .dbuf k).trans (ht.bytes .dbuf k)
      cases d <;> simp [State.rowStep, State.dataStep, DataForm.bytes, ha, hb])
    (fun _ => rfl) (fun p hp _ => ⟨next_seq (row_lt hr) p hp, rfl, rfl⟩)

/-- The count and the bytes of a LOOPDATA row along a run. -/
theorem At.loop {s t u : State} {op : Op} {ph i nx nb : Nat} {es : List Event} {v : View}
    (ht : At s op ph i nx nb es v t) (hu : SameOperands t u) (l : LoopForm) (k : Nat) :
    l.count u = l.count s ∧ l.byte u k = l.byte s k := by
  cases l <;> simp [LoopForm.count, LoopForm.byte, hu.len0, hu.len1, hu.arg, hu.bytes, ht.len0, ht.len1, ht.arg, ht.bytes]

/-- No count is above 2756. -/
theorem count_le (l : LoopForm) (s : State) : l.count s ≤ 2756 := by
  cases l
  · exact Nat.min_le_right _ _
  · exact Nat.min_le_right _ _
  · exact Nat.le_refl _

/-- With every answer at the first ask, as many asks as transfers. -/
@[simp] theorem asksOf_zero (k : Nat) : asksOf (fun _ => 0) k = k := by
  induction k with
  | zero => rfl
  | succ k ih => rw [asksOf, ih]

/-- The first `k` bytes of a LOOPDATA row, each in its frame, byte `j` answered after `p j` asks in vain. -/
theorem Ran.loopAfter {n : Nat} {s : State} {op : Op} {ph nx nb : Nat} {es : List Event} {v : View} {l : LoopForm}
    (h : Ran n s op ph 0 nx nb es v) (hr : (phaseTable op)[ph]? = some (.loopData l))
    (p : Nat → Nat) (k : Nat) (hk : k ≤ l.count s) (hx : ∀ j < k, s.answered (nx + asksOf p j) (p j) .ok) :
    Ran (n + (3 * k + asksOf p k)) s op ph k (nx + asksOf p k) nb
      (es ++ byteFrames ((List.range k).map (fun j => l.byte s j))) (v.looped k) := by
  induction k with
  | zero => simpa [byteFrames, View.looped, asksOf] using h
  | succ k ih =>
    have hk' : k < l.count s := hk
    have hc := count_le l s
    have hf := (ih (by omega) (fun j hj => hx j (by omega))).frame (ph' := ph) (i' := k + 1) (dc := true) (bs := [l.byte s k]) (fin := State.loopNext)
      (fun p => { p with idx := p.idx + 1#16, sub := 0#2 }) hr (hx k (by omega))
      (fun t u ht hu => by
        have hi : u.seq.idx.toNat = k := by rw [hu.idx, ht.idx]
        have hn : ¬ (u.seq.sub = 0#2 ∧ l.count u ≤ u.seq.idx.toNat) := by
          rw [(ht.loop hu l k).1, hi]
          omega
        rw [State.rowStep, State.loopStep, if_neg hn, hi, (ht.loop hu l k).2])
      (fun _ => rfl)
      (fun p hp hi => ⟨hp, rfl, by simp only [BitVec.toNat_add, hi]; rw [Nat.mod_eq_of_lt (by simp; omega)]; rfl⟩)
    have e1 : byteFrames ((List.range (k + 1)).map (fun j => l.byte s j)) =
        byteFrames ((List.range k).map (fun j => l.byte s j)) ++ dataFrame [l.byte s k] .ok := by
      simp [byteFrames, List.range_succ]
    have e2 : (v.looped k).framed true = v.looped (k + 1) := by simp [View.looped, View.framed]
    rw [e2] at hf
    rw [e1, ← List.append_assoc, asksOf, show n + (3 * (k + 1) + (asksOf p k + p k + 1)) =
      n + (3 * k + asksOf p k) + (4 + p k) by omega, show nx + (asksOf p k + p k + 1) = nx + asksOf p k + (p k + 1) by omega]
    exact hf

/-- The first `k` bytes of a LOOPDATA row, each in its frame, every answer at the first ask. -/
theorem Ran.loopPart {n : Nat} {s : State} {op : Op} {ph nx nb : Nat} {es : List Event} {v : View} {l : LoopForm}
    (h : Ran n s op ph 0 nx nb es v) (hr : (phaseTable op)[ph]? = some (.loopData l))
    (k : Nat) (hk : k ≤ l.count s) (hx : ∀ j < k, s.xferAt (nx + j) = .answer .ok) :
    Ran (n + 4 * k) s op ph k (nx + k) nb (es ++ byteFrames ((List.range k).map (fun j => l.byte s j)))
      (v.looped k) := by
  have := h.loopAfter hr (fun _ => 0) k hk (fun j hj => by rw [asksOf_zero]; exact answered_zero (hx j hj))
  rwa [asksOf_zero, show n + (3 * k + k) = n + 4 * k by omega] at this

/-- The silent step that ends a LOOPDATA row, once IDX has reached the count. -/
theorem Ran.loopEnd {n : Nat} {s : State} {op : Op} {ph nx nb : Nat} {es : List Event} {v : View} {l : LoopForm}
    (h : Ran n s op ph (l.count s) nx nb es v) (hr : (phaseTable op)[ph]? = some (.loopData l)) :
    Ran (n + 1) s op (ph + 1) 0 nx nb es v := by
  obtain ⟨t, ht, h⟩ := h
  have hrow : t.row? = some (.loopData l) := by rw [h.row, hr]
  have hend : t.tick.rowStep (.loopData l) = t.tick.nextPhase := by
    have hs : SameOperands t t.tick := ⟨rfl, rfl, rfl, rfl, rfl, fun _ _ => rfl, rfl, fun hs => hs⟩
    rw [State.rowStep, State.loopStep, if_pos]
    exact ⟨h.sub, by rw [(h.loop hs l 0).1, tick_seq, h.idx]⟩
  refine ⟨_, reaches_add ht (reaches_row h.quiet (by rw [h.op]; exact row_op hr) hrow), ?_⟩
  rw [hend]
  exact
    { op := h.op
      ph := ph_succ h.ph (row_lt hr)
      sub := rfl
      idx := rfl
      quiet := quiet_of_tail h.quiet (by simp)
      trace := h.trace
      xfer := fun k => by rw [xferAt_congr (s := t) (by simp) (by simp)]; exact h.xfer k
      busy := fun k => by rw [busyAt_congr (s := t) (by simp) (by simp)]; exact h.busy k
      arg := h.arg
      len0 := h.len0
      len1 := h.len1
      dlen := h.dlen
      bytes := h.bytes
      view := h.view }

/-- A LOOPDATA row whose transfers succeed at the first ask: its bytes, each in its frame, and the silent step that ends
it. -/
theorem Ran.loop {n : Nat} {s : State} {op : Op} {ph nx nb : Nat} {es : List Event} {v : View} {l : LoopForm}
    (h : Ran n s op ph 0 nx nb es v) (hr : (phaseTable op)[ph]? = some (.loopData l))
    (hx : ∀ k < l.count s, s.xferAt (nx + k) = .answer .ok) :
    Ran (n + 4 * l.count s + 1) s op (ph + 1) 0 (nx + l.count s) nb
      (es ++ byteFrames ((List.range (l.count s)).map (fun j => l.byte s j)))
      (v.looped (l.count s)) :=
  (h.loopPart hr (l.count s) (Nat.le_refl _) hx).loopEnd hr

/-- A WAITBUSY row: `m` samples of 0, each with its delay, and a sample of 1. -/
theorem Ran.wait {n : Nat} {s : State} {op : Op} {ph i nx nb : Nat} {es : List Event} {v : View} (m : Nat)
    (h : Ran n s op ph i nx nb es v) (hr : (phaseTable op)[ph]? = some .waitBusy)
    (h0 : ∀ k < m, s.busyAt (nb + k) = false) (h1 : s.busyAt (nb + m) = true) :
    Ran (n + 2 * m + 1) s op (ph + 1) 0 nx (nb + m + 1) (es ++ busyWait m) v.released := by
  induction m generalizing n nb es v with
  | zero =>
    obtain ⟨t, ht, h⟩ := h
    have hb : t.tick.busyAt 0 = true := (h.busy 0).trans h1
    refine ⟨_, reaches_add ht (reaches_row h.quiet (by rw [h.op]; exact row_op hr) (by rw [h.row, hr])), ?_⟩
    rw [State.rowStep, State.waitStep, if_pos (by rw [tick_seq]; exact h.sub)]
    simp only [hb, if_true]
    exact
      { op := by simpa using h.op
        ph := by simpa using ph_succ h.ph (row_lt hr)
        sub := by simp
        idx := by simp
        quiet := quiet_of_tail h.quiet (by simp)
        trace := by simp [h.trace, busyWait]
        xfer := fun k => by rw [xferAt_congr (s := t) (by simp) (by simp)]; exact h.xfer k
        busy := fun k => by
          have e := busyAt_popBusy t k
          rw [h.busy] at e
          rw [show nb + 0 + 1 + k = nb + (k + 1) by omega, ← e]
          exact busyAt_congr (by simp) (by simp) k
        arg := by simpa using h.arg
        len0 := by simpa using h.len0
        len1 := by simpa using h.len1
        dlen := by simpa using h.dlen
        bytes := fun b k => by
          rw [bufByte_congr (s := t) (by simp) (by simp) (by simp) (by simp)]
          exact h.bytes b k
        view := by
          have hv := h.view
          subst hv
          simp [State.view, View.released] }
  | succ m ih =>
    have hz : s.busyAt nb = false := by simpa using h0 0 (by omega)
    obtain ⟨t, ht, h⟩ := h
    have hop : t.op ≠ .idle := by rw [h.op]; exact row_op hr
    have hrow : t.row? = some .waitBusy := by rw [h.row, hr]
    have hb : t.tick.busyAt 0 = false := (h.busy 0).trans hz
    have r1 := reaches_row h.quiet hop hrow
    rw [State.rowStep, State.waitStep, if_pos (by rw [tick_seq]; exact h.sub)] at r1
    simp only [hb, Bool.false_eq_true, if_false] at r1
    have r2 := reaches_row (s := (t.tick.popBusy.sampled false).withSub 1#2) (r := .waitBusy)
      (quiet_of_tail h.quiet (by simp)) (by simpa using hop) (by
        rw [← hrow, State.row?, State.row?]
        simp)
    rw [State.rowStep, State.waitStep, if_neg (by simp)] at r2
    have step2 : Ran (n + 2) s op ph i nx (nb + 1) (es ++ [.busy false, .delay 100]) { v with last := false } := by
      refine ⟨_, reaches_add ht (reaches_add r1 r2), ?_⟩
      exact
        { op := by simpa using h.op
          ph := by simpa using h.ph
          sub := by simp
          idx := by simpa using h.idx
          quiet := quiet_of_tail (s := t.tick) (quiet_of_tail h.quiet (by simp)) (by simp)
          trace := by simp [h.trace, Config.tBusyPoll]
          xfer := fun k => by rw [xferAt_congr (s := t) (by simp) (by simp)]; exact h.xfer k
          busy := fun k => by
            have e := busyAt_popBusy t k
            rw [h.busy] at e
            rw [show nb + 1 + k = nb + (k + 1) by omega, ← e]
            exact busyAt_congr (by simp) (by simp) k
          arg := by simpa using h.arg
          len0 := by simpa using h.len0
          len1 := by simpa using h.len1
          dlen := by simpa using h.dlen
          bytes := fun b k => by
            rw [bufByte_congr (s := t) (by simp) (by simp) (by simp) (by simp)]
            exact h.bytes b k
          view := by
            have hv := h.view
            subst hv
            simp [State.view] }
    have := ih step2 (fun k hk => by rw [show nb + 1 + k = nb + (k + 1) by omega]; exact h0 (k + 1) (by omega))
      (by rw [show nb + 1 + m = nb + (m + 1) by omega]; exact h1)
    simp only [List.append_assoc, List.cons_append, List.nil_append] at this
    rw [show n + 2 * (m + 1) + 1 = n + 2 + 2 * m + 1 by omega, show nb + (m + 1) + 1 = nb + 1 + m + 1 by omega]
    exact this

/-- What stands after the END row. -/
structure Ended (s : State) (o : Op) (es : List Event) (v : View) (t : State) : Prop where
  op : t.op = .idle
  trace : t.trace = s.trace ++ es ++ [.ret o.code 0#2]
  err : t.err = 0#2
  done : t.done = true
  arg : t.arg = s.arg
  len0 : t.len0 = s.len0
  len1 : t.len1 = s.len1
  bytes : ∀ b k, t.bufByte b k = s.bufByte b k
  session : t.session = v.session
  gpio : t.gpioOpen = v.gpio
  spi : t.spiOpen = v.spi
  rst : t.rstL = v.rst
  dc : t.dcL = v.dc
  cs : t.csL = v.cs
  last : t.lastBusy = v.last

/-- The END row. -/
theorem Ran.finish {n : Nat} {s : State} {op : Op} {ph nx nb : Nat} {es : List Event} {v : View}
    (h : Ran n s op ph 0 nx nb es v) (hr : (phaseTable op)[ph]? = some .finish) :
    ∃ t, Reaches (n + 1) s t ∧ Ended s op es v t := by
  obtain ⟨t, ht, h⟩ := h
  refine ⟨_, reaches_add ht (reaches_row h.quiet (by rw [h.op]; exact row_op hr) (by rw [h.row, hr])), ?_⟩
  have hv := h.view
  subst hv
  exact
    { op := by simp [State.rowStep, State.finish]
      trace := by simp [State.rowStep, State.finish, h.trace, h.op]
      err := by simp [State.rowStep, State.finish]
      done := by simp [State.rowStep, State.finish]
      arg := by simpa [State.rowStep, State.finish] using h.arg
      len0 := by simpa [State.rowStep, State.finish] using h.len0
      len1 := by simpa [State.rowStep, State.finish] using h.len1
      bytes := fun b k => by
        rw [bufByte_congr (s := t) (by simp [State.rowStep, State.finish]) (by simp [State.rowStep, State.finish])
          (by simp [State.rowStep, State.finish]) (by simp [State.rowStep, State.finish])]
        exact h.bytes b k
      session := by simp [State.rowStep, State.finish]
      gpio := by simp [State.rowStep, State.finish]
      spi := by simp [State.rowStep, State.finish]
      rst := by simp [State.rowStep, State.finish]
      dc := by simp [State.rowStep, State.finish]
      cs := by simp [State.rowStep, State.finish]
      last := by simp [State.rowStep, State.finish] }

/-- An accepted request: the operation stands at row 0 in a state that differs from the one before in OP, ARG, the
counters, DONE and the inputs taken. -/
theorem accepted_run {s : State} {w : BitVec 12} {op : Op} (h : s.ready w) (hop : op ≠ .idle) (hw : reqOp w = op.code)
    (hv : valid op s.session = true) (hl : s.badLength op = false) :
    ∃ t, Reaches 1 s t ∧ Ran 0 t op 0 0 0 0 [] s.view ∧ t.trace = s.trace ∧ t.arg = reqArg w ∧ t.len0 = s.len0 ∧
      t.len1 = s.len1 ∧ t.dlen = s.dlen ∧ (∀ b k, t.bufByte b k = s.bufByte b k) ∧ (∀ k, t.xferAt k = s.xferAt k) ∧
      (∀ k, t.busyAt k = s.busyAt k) := by
  obtain ⟨hi, hq, rest, hh⟩ := h
  have hs := step_request (quiet_inReset hq) hi hh
  have he : exec (decodeRequest w) (s.tick.withHost rest) = .next (((s.tick.withHost rest).withArg (reqArg w)).start op) := by
    rcases exec_request w (s.tick.withHost rest) with ⟨o, ho, hc, he⟩ | ⟨hr, -⟩
    · have : o = op := by
        rw [hw] at hc
        revert hc
        cases o <;> cases op <;> simp [Op.code]
      subst this
      rw [he]
      rcases accept_cases o (reqArg w) (s.tick.withHost rest) with ⟨h1, -⟩ | ⟨-, h1, -⟩ | ⟨-, -, h1, -⟩ | ⟨-, -, -, h1⟩
      · exact absurd hi h1
      · rw [show (s.tick.withHost rest).session = s.session by simp, hv] at h1
        cases h1
      · rw [show (s.tick.withHost rest).badLength o = s.badLength o from rfl, hl] at h1
        cases h1
      · rw [h1]
    · exfalso
      rw [hw] at hr
      revert hr
      cases op <;> first | exact absurd rfl hop | decide
  refine ⟨_, reaches_succ (hs.trans he) (reaches_zero _), ?_⟩
  refine ⟨?_, by simp, by simp, by simp, by simp, by simp, fun b k => bufByte_congr (by simp) (by simp) (by simp) (by simp) b k,
    fun k => xferAt_congr (by simp) (by simp) k, fun k => busyAt_congr (by simp) (by simp) k⟩
  have := ran_zero (s := ((s.tick.withHost rest).withArg (reqArg w)).start op) (op := op) (by simp) (by simp) (by simp)
    (by simp) (quiet_of_tail hq (by simp))
  rwa [show (((s.tick.withHost rest).withArg (reqArg w)).start op).view = s.view by simp [State.view]] at this

end Sys2Proof.Machine
end

