-- ==== Sys2Proof/Laws/Encoder.lean ====
section
/-! SUPPORT. The encoder: what one pixel does to a plane, the order of the scan, and the runs of FILL and SCAN. -/

namespace Sys2Proof.Machine

/-- A pixel keeps the length of a plane. -/
@[simp] theorem packPixel_length (rw rh : Word16) (r : Raster) (p : List Byte) (yx : Nat × Nat) :
    (packPixel rw rh r p yx).length = p.length := by
  unfold packPixel
  split <;> simp

/-- The mask of column x clears bit 7 - (x mod 8) and no other. -/
theorem packMask_bit (b : Byte) (x j : Nat) (hj : j < 8) :
    (b &&& ~~~ packMask x).getLsbD j = (b.getLsbD j && !decide (j = 7 - x % 8)) := by
  have h : ∀ m < 8, ∀ j < 8, (~~~ (0x80#8 >>> m)).getLsbD j = !decide (j = 7 - m) := by decide
  rw [BitVec.getLsbD_and, packMask, h _ (Nat.mod_lt _ (by decide)) j hj]

/-- The scan runs through 104 columns of each of 212 rows. -/
theorem scanOrder_eq : scanOrder = (List.range 22048).map fun n => (n / 104, n % 104) := by
  have h : ∀ h : Nat, ((List.range h).flatMap fun y => (List.range 104).map fun x => (y, x)) =
      (List.range (h * 104)).map fun n => (n / 104, n % 104) := by
    intro h
    induction h with
    | zero => rfl
    | succ h ih =>
      rw [List.range_succ (n := h), List.flatMap_append, ih, Nat.succ_mul, List.range_add, List.map_append]
      congr 1
      simp only [List.flatMap_cons, List.flatMap_nil, List.append_nil, List.map_map]
      apply List.map_congr_left
      intro x hx
      have hx : x < 104 := List.mem_range.mp hx
      have h1 : (h * 104 + x) / 104 = h := by omega
      have h2 : (h * 104 + x) % 104 = x := by omega
      simp [h1, h2]
  exact h 212

/-- Both planes have 2756 bytes. -/
theorem dest_depth (s : State) : s.dest.depth = 2756 := by
  rcases dest_cases s with h | h <;> rw [h] <;> rfl

/-- `t` is inside an ENCODE that started at `s`: all but the destination, the counters and DONE is as it was. -/
structure Encoding (s t : State) : Prop where
  op : t.op = .encode
  arg : t.arg = s.arg
  rw : t.rw = s.rw
  rh : t.rh = s.rh
  raster : t.raster = s.raster
  quiet : t.quiet
  mem : t.MemOk
  other : ∀ b k, b ≠ s.dest → t.bufByte b k = s.bufByte b k
  len0 : t.len0 = s.len0
  len1 : t.len1 = s.len1
  trace : t.trace = s.trace
  view : t.view = s.view
  sub : t.seq.sub = 0#2

/-- The destination does not change. -/
theorem Encoding.dest {s t : State} (h : Encoding s t) : t.dest = s.dest := by rw [State.dest, State.dest, h.arg]

/-- Only the counters change. -/
theorem Encoding.counters {s t : State} (h : Encoding s t) (q : SeqRegs) (hq : q.sub = 0#2) :
    Encoding s (t.tick.withSeq q) :=
  { h with quiet := quiet_of_tail h.quiet rfl, mem := memOk_congr h.mem rfl rfl rfl, sub := hq }

/-- A byte of the destination is written. -/
theorem Encoding.setBuf {s t : State} (h : Encoding s t) (k : Nat) (v : Byte) (hk : k < 2756) (q : SeqRegs)
    (hq : q.sub = 0#2) :
    Encoding s ((t.tick.setBuf s.dest k v).withSeq q) ∧
    ∀ j, ((t.tick.setBuf s.dest k v).withSeq q).bufByte s.dest j = if j = k then v else t.bufByte s.dest j := by
  have hm : t.tick.MemOk := memOk_congr h.mem rfl rfl rfl
  have hb : ∀ b j, ((t.tick.setBuf s.dest k v).withSeq q).bufByte b j =
      if s.dest = b ∧ k = j then v else t.bufByte b j := by
    intro b j
    rw [bufByte_congr (s := t.tick.setBuf s.dest k v) (by simp) (by simp) (by simp) (by simp),
      setBuf_bufByte _ _ _ _ _ _ (memOk_buf hm _)]
    rfl
  constructor
  · exact
      { op := by simpa using h.op
        arg := by simpa using h.arg
        rw := by simpa using h.rw
        rh := by simpa using h.rh
        raster := by simpa using h.raster
        quiet := quiet_of_tail h.quiet (by simp)
        mem := memOk_congr (setBuf_memOk t.tick s.dest k v hm (by rw [dest_depth]; exact hk)) rfl rfl rfl
        other := fun b j hne => by
          rw [hb, if_neg (fun e => hne e.1.symm)]
          exact h.other b j hne
        len0 := by simpa using h.len0
        len1 := by simpa using h.len1
        trace := by simpa using h.trace
        view := by
          rw [← h.view]
          simp [State.view]
        sub := hq }
  · intro j
    rw [hb]
    simp [eq_comm]

/-- The first `n` steps of FILL. -/
theorem fill_run {s t : State} (h : Encoding s t) (hp : t.seq.ph = 0#6) (hi : t.seq.idx = 0#16) (n : Nat)
    (hn : n ≤ 2756) :
    ∃ u, Reaches n t u ∧ Encoding s u ∧ u.seq.ph = 0#6 ∧ u.seq.idx.toNat = n ∧
      (0 < n → u.seq.stride.toNat = packStride s.rw) ∧ ∀ j < n, u.bufByte s.dest j = 0xFF#8 := by
  induction n with
  | zero => exact ⟨t, reaches_zero t, h, hp, by simp [hi], by simp, by simp⟩
  | succ n ih =>
    obtain ⟨u, hr, he, h1, h2, h3, h4⟩ := ih (by omega)
    have hrow : u.row? = some .fill := by rw [State.row?, he.op, h1]; rfl
    have hs := reaches_row he.quiet (by rw [he.op]; decide) hrow
    have hlt : u.tick.seq.idx.toNat < Config.planeBytes := by
      show u.seq.idx.toNat < 2756
      omega
    have hd : u.tick.dest = s.dest := he.dest
    rw [State.rowStep, State.fillStep, if_pos hlt, hd] at hs
    have e : u.tick.seq.idx.toNat = n := h2
    have e2 : (State.setBuf s.dest n 255#8 u.tick).rw = s.rw := by rw [setBuf_rw]; exact he.rw
    have e3 : (State.setBuf s.dest n 255#8 u.tick).seq = u.seq := by rw [setBuf_seq]; rfl
    simp only [e, e2, e3] at hs
    have := he.setBuf n 0xFF#8 (by omega)
      { u.seq with idx := u.seq.idx + 1#16, stride := BitVec.ofNat 8 (packStride s.rw) } he.sub
    refine ⟨_, reaches_add hr hs, this.1, h1, ?_, ?_, ?_⟩
    · simp
      omega
    · intro _
      simp [packStride, Config.width]
    · intro j hj
      rw [this.2]
      split
      · rfl
      · exact h4 j (by omega)

/-- One step of SCAN on the destination is one pixel of EncodePlane. -/
theorem scan_pixel {s t : State} (h : Encoding s t) (hst : t.seq.stride.toNat = packStride s.rw) (q : SeqRegs)
    (hq : q.sub = 0#2) :
    Encoding s (t.tick.scanPixel.withSeq q) ∧
    (t.tick.scanPixel.withSeq q).planeContents s.dest =
      packPixel s.rw s.rh s.raster (t.planeContents s.dest) (t.seq.y.toNat, t.seq.x.toNat) := by
  have stay := h.counters q hq
  unfold State.scanPixel packPixel
  have eb : t.tick.raster.blackAt t.tick.rw t.tick.rh t.tick.seq.y.toNat t.tick.seq.x.toNat =
      s.raster.blackAt s.rw s.rh t.seq.y.toNat t.seq.x.toNat := by
    show t.raster.blackAt t.rw t.rh _ _ = _
    rw [h.raster, h.rw, h.rh]
    rfl
  rw [eb]
  have hd : t.tick.dest = s.dest := h.dest
  split
  · dsimp only
    have ei : packIndex t.tick.seq.stride.toNat t.tick.seq.y.toNat t.tick.seq.x.toNat =
        packIndex (packStride s.rw) t.seq.y.toNat t.seq.x.toNat := by
      rw [← hst]
      rfl
    rw [ei, hd]
    generalize packIndex (packStride s.rw) t.seq.y.toNat t.seq.x.toNat / 8 = k
    split
    · rename_i hlt
      have := h.setBuf k (t.tick.bufByte s.dest k &&& ~~~ packMask t.tick.seq.x.toNat) hlt q hq
      refine ⟨this.1, ?_⟩
      apply List.ext_getElem?
      intro i
      simp only [State.planeContents, List.getElem?_map, List.getElem?_modify]
      by_cases hi : i < 2756
      · rw [List.getElem?_range (by exact hi)]
        simp only [Option.map_some, this.2]
        by_cases hik : i = k
        · subst hik
          simp
          rfl
        · have := Ne.symm hik
          simp [hik, this]
      · rw [List.getElem?_eq_none (by rw [List.length_range]; exact Nat.le_of_not_lt hi)]
        simp
    · rename_i hlt
      refine ⟨stay, ?_⟩
      rw [List.modify_eq_self (by
        simp only [State.planeContents, List.length_map, List.length_range]
        exact Nat.le_of_not_lt hlt)]
      rfl
  · exact ⟨stay, rfl⟩

/-- The first `n` steps of SCAN, short of the last. -/
theorem scan_run {s t : State} (h : Encoding s t) (hp : t.seq.ph = 1#6) (hi : t.seq.idx = 0#16) (hy : t.seq.y = 0#8)
    (hx : t.seq.x = 0#7) (hst : t.seq.stride.toNat = packStride s.rw) (n : Nat) (hn : n < 22048) :
    ∃ u, Reaches n t u ∧ Encoding s u ∧ u.seq.ph = 1#6 ∧ u.seq.idx = 0#16 ∧ u.seq.y.toNat = n / 104 ∧
      u.seq.x.toNat = n % 104 ∧ u.seq.stride.toNat = packStride s.rw ∧
      u.planeContents s.dest = ((List.range n).map fun n => (n / 104, n % 104)).foldl
        (packPixel s.rw s.rh s.raster) (t.planeContents s.dest) := by
  induction n with
  | zero =>
    exact ⟨t, reaches_zero t, h, hp, hi, by simp [hy], by simp [hx], hst,
      by rw [List.range_zero, List.map_nil, List.foldl_nil]⟩
  | succ n ih =>
    obtain ⟨u, hr, he, h1, h2, h3, h4, h5, h6⟩ := ih (by omega)
    have hrow : u.row? = some .scan := by rw [State.row?, he.op, h1]; rfl
    have hs := reaches_row he.quiet (by rw [he.op]; decide) hrow
    have key : ∃ q : SeqRegs, q.sub = 0#2 ∧ u.tick.rowStep .scan = u.tick.scanPixel.withSeq q ∧ q.ph = 1#6 ∧
        q.idx = 0#16 ∧ q.y.toNat = (n + 1) / 104 ∧ q.x.toNat = (n + 1) % 104 ∧ q.stride = u.seq.stride := by
      rw [State.rowStep, State.scanStep, State.scanNext, scanPixel_seq, tick_seq]
      have hh : Config.height = 104 := rfl
      have hw : Config.width = 212 := rfl
      rw [hh, hw]
      split
      · rename_i hlt
        refine ⟨{ u.seq with x := u.seq.x + 1#7 }, he.sub, rfl, h1, h2, ?_, ?_, rfl⟩
        · show u.seq.y.toNat = _
          omega
        · show (u.seq.x + 1#7).toNat = _
          rw [BitVec.toNat_add]
          simp
          omega
      · rename_i hlt
        rw [if_pos (by omega)]
        refine ⟨{ u.seq with x := 0#7, y := u.seq.y + 1#8 }, he.sub, rfl, h1, h2, ?_, ?_, rfl⟩
        · show (u.seq.y + 1#8).toNat = _
          rw [BitVec.toNat_add]
          simp
          omega
        · show (0#7).toNat = _
          simp
          omega
    obtain ⟨q, q1, q2, q3, q4, q5, q6, q7⟩ := key
    rw [q2] at hs
    have := scan_pixel he h5 q q1
    refine ⟨_, reaches_add hr hs, this.1, q3, q4, q5, q6, by rw [← h5]; exact congrArg BitVec.toNat q7, ?_⟩
    rw [this.2, h6, List.range_succ, List.map_append, List.foldl_append]
    simp [h3, h4]

end Sys2Proof.Machine
end

