-- ==== Sys2Proof/Laws/Encoding.lean ====
section
/-! SUPPORT. The fields of a request word, and its bytes. -/

namespace Sys2Proof

/-- The op field of a request word that was put together. -/
@[simp] theorem reqOp_requestWord (op : BitVec 4) (arg : Byte) : reqOp (requestWord op arg) = op := by
  unfold reqOp requestWord
  ext i hi
  have h1 : 8 + i < 12 := by omega
  simp [h1, BitVec.getLsbD_eq_getElem hi]

/-- The arg field of a request word that was put together. -/
@[simp] theorem reqArg_requestWord (op : BitVec 4) (arg : Byte) : reqArg (requestWord op arg) = arg := by
  unfold reqArg requestWord
  ext i hi
  have h1 : i < 12 := by omega
  simp [h1, hi]

/-- A request word is its two fields put together. -/
theorem requestWord_fields (w : BitVec 12) : requestWord (reqOp w) (reqArg w) = w := by
  unfold reqOp reqArg requestWord
  ext i hi
  by_cases h : i < 8
  · simp [h, hi]
  · have h2 : 8 + (i - 8) = i := by omega
    have h4 : i - 8 < 4 := by omega
    have h5 : w.getLsbD i = w[i] := BitVec.getLsbD_eq_getElem hi
    simp [h, h2, h4, h5]

/-- A request word as a number. -/
theorem requestWord_toNat (op : BitVec 4) (arg : Byte) : (requestWord op arg).toNat = arg.toNat + 256 * op.toNat := by
  have h1 := op.isLt
  have h2 := arg.isLt
  have e : (op.setWidth 12 <<< 8).toNat = op.toNat <<< 8 := by
    simp [Nat.shiftLeft_eq]
    omega
  have e2 : (arg.setWidth 12).toNat = arg.toNat := by
    simp
    omega
  unfold requestWord
  rw [BitVec.toNat_or, e, e2, ← Nat.shiftLeft_add_eq_or_of_lt h2, Nat.shiftLeft_eq]
  omega

/-- The two bytes of a request word: the argument, and the op field widened. -/
theorem requestBytes_eq (op : BitVec 4) (arg : Byte) : requestBytes op arg = [arg, op.setWidth 8] := by
  simp [requestBytes]

/-- The decoder reads a request word back from its two bytes. -/
theorem decode_requestBytes (op : BitVec 4) (arg : Byte) (rest : List Byte) :
    decode .host (requestBytes op arg ++ rest) = .ok (decodeRequest (requestWord op arg), rest) := by
  have h1 := op.isLt
  have e : (op.setWidth 8).toNat = op.toNat := by
    simp
    omega
  have hw : wordOfBytes arg (op.setWidth 8) = (requestWord op arg).toNat := by
    rw [wordOfBytes, e, requestWord_toNat]
  have hlt : (requestWord op arg).toNat < 4096 := (requestWord op arg).isLt
  simp [requestBytes_eq, decode, hw, requestWordWf, hlt]

end Sys2Proof
end

