-- ==== Sys2Proof/Laws/PerInstr.lean ====
section
/-! SUPPORT. Facts about every instruction as syntax, one lemma a constructor. -/

namespace Sys2Proof.Laws.EncodeShape

/-- An instruction is well formed, and its code is one byte on the wire and two at the request port. -/
def Statement (i : Instr) : Prop := i.wf = true ∧ (encode i).length = if i.space = .wire then 1 else 2

theorem boosterSoftStart : Statement .boosterSoftStart := ⟨rfl, rfl⟩
theorem powerOn : Statement .powerOn := ⟨rfl, rfl⟩
theorem panelSetting : Statement .panelSetting := ⟨rfl, rfl⟩
theorem vcomAndInterval : Statement .vcomAndInterval := ⟨rfl, rfl⟩
theorem resolutionSetting : Statement .resolutionSetting := ⟨rfl, rfl⟩
theorem displayBlack : Statement .displayBlack := ⟨rfl, rfl⟩
theorem displayRed : Statement .displayRed := ⟨rfl, rfl⟩
theorem refresh : Statement .refresh := ⟨rfl, rfl⟩
theorem powerOff : Statement .powerOff := ⟨rfl, rfl⟩
theorem deepSleep : Statement .deepSleep := ⟨rfl, rfl⟩
theorem reset (a : Byte) : Statement (.reset a) := ⟨rfl, rfl⟩
theorem init (a : Byte) : Statement (.init a) := ⟨rfl, rfl⟩
theorem display (a : Byte) : Statement (.display a) := ⟨rfl, rfl⟩
theorem clear (a : Byte) : Statement (.clear a) := ⟨rfl, rfl⟩
theorem readbusy (a : Byte) : Statement (.readbusy a) := ⟨rfl, rfl⟩
theorem sleep (a : Byte) : Statement (.sleep a) := ⟨rfl, rfl⟩
theorem sendcmd (a : Byte) : Statement (.sendcmd a) := ⟨rfl, rfl⟩
theorem senddata (a : Byte) : Statement (.senddata a) := ⟨rfl, rfl⟩
theorem sendbuf (a : Byte) : Statement (.sendbuf a) := ⟨rfl, rfl⟩
theorem encode (a : Byte) : Statement (.encode a) := ⟨rfl, rfl⟩
theorem reserved0 (a : Byte) : Statement (.reserved0 a) := ⟨rfl, rfl⟩
theorem reservedB (a : Byte) : Statement (.reservedB a) := ⟨rfl, rfl⟩
theorem reservedC (a : Byte) : Statement (.reservedC a) := ⟨rfl, rfl⟩
theorem reservedD (a : Byte) : Statement (.reservedD a) := ⟨rfl, rfl⟩
theorem reservedE (a : Byte) : Statement (.reservedE a) := ⟨rfl, rfl⟩
theorem reservedF (a : Byte) : Statement (.reservedF a) := ⟨rfl, rfl⟩

end Sys2Proof.Laws.EncodeShape
end

