-- ==== Sys2Proof/Laws/Tables.lean ====
section
/-! SUPPORT. Facts about the phase tables, found by looking at every row once: which rows stand where, and that every row
but END has a next one. -/

namespace Sys2Proof.Machine

/-- Every operation, for a case analysis by decision. -/
def allOps : List Op :=
  [.idle, .reset, .init, .display, .clear, .readbusy, .sleep, .sendcmd, .senddata, .sendbuf, .encode]

/-- `allOps` leaves none out. -/
theorem mem_allOps (o : Op) : o ∈ allOps := by cases o <;> decide

/-- A row is not the last of its table but where it is END; only FILL is followed by SCAN. -/
theorem next_row {o : Op} {n : Nat} {r : Row} (h : (phaseTable o)[n]? = some r) (hf : r ≠ .finish) :
    ∃ r', (phaseTable o)[n + 1]? = some r' ∧ (r' = .scan → r = .fill) := by
  have key : ∀ o ∈ allOps, ∀ n < 24, ∀ r ∈ (phaseTable o)[n]?, r ≠ .finish →
      ∃ r' ∈ (phaseTable o)[n + 1]?, (r' = .scan → r = .fill) := by
    decide +kernel
  obtain ⟨r', h1, h2⟩ := key o (mem_allOps o) n (row_lt h) r h hf
  exact ⟨r', h1, h2⟩

/-- Where the rows that send frames stand, and that no PIN row writes CS. -/
theorem sending_rows {s : State} {r : Row} (h : s.row? = some r) :
    (r.sendsFrames = true → s.op ≠ .encode ∧ (s.op = .init → 2 ≤ s.seq.ph.toNat ∧ s.seq.ph.toNat ≠ 23) ∧
      (s.op = .sleep → s.seq.ph.toNat ≤ 3)) ∧ ∀ v, r ≠ .pin .cs v := by
  have key : ∀ o ∈ allOps, ∀ n < 24, ∀ r ∈ (phaseTable o)[n]?,
      (r.sendsFrames = true → o ≠ .encode ∧ (o = .init → 2 ≤ n ∧ n ≠ 23) ∧ (o = .sleep → n ≤ 3)) ∧
      ∀ v : Bool, r ≠ .pin .cs v := by
    decide +kernel
  exact key s.op (mem_allOps _) _ (row_lt h) r h

/-- Where the rows that change a handle stand. -/
theorem handle_rows {s : State} {r : Row} (h : s.row? = some r) :
    (r = .acq .gpio ↔ s.op = .init ∧ s.seq.ph.toNat = 0) ∧ (r = .acq .spi ↔ s.op = .init ∧ s.seq.ph.toNat = 1) ∧
    (r = .relSpi ↔ s.op = .sleep ∧ s.seq.ph.toNat = 5) := by
  have key : ∀ o ∈ allOps, ∀ n < 24, ∀ r ∈ (phaseTable o)[n]?,
      (r = .acq .gpio ↔ o = .init ∧ n = 0) ∧ (r = .acq .spi ↔ o = .init ∧ n = 1) ∧
      (r = .relSpi ↔ o = .sleep ∧ n = 5) := by
    decide +kernel
  exact key s.op (mem_allOps _) _ (row_lt h) r h

/-- Where the rows that set the session state stand. -/
theorem session_rows {s : State} {r : Row} (h : s.row? = some r) :
    (r = .setState .initialized ↔ s.op = .init ∧ s.seq.ph.toNat = 22) ∧
    (r = .setState .sleeping ↔ s.op = .sleep ∧ s.seq.ph.toNat = 8) ∧ r ≠ .setState .uninitialized := by
  have key : ∀ o ∈ allOps, ∀ n < 24, ∀ r ∈ (phaseTable o)[n]?,
      (r = .setState .initialized ↔ o = .init ∧ n = 22) ∧ (r = .setState .sleeping ↔ o = .sleep ∧ n = 8) ∧
      r ≠ .setState .uninitialized := by
    decide +kernel
  exact key s.op (mem_allOps _) _ (row_lt h) r h

/-- Where the rows of the encoder stand, and the END rows of INIT and SLEEP. -/
theorem other_rows {s : State} {r : Row} (h : s.row? = some r) :
    (r = .fill ∨ r = .scan ∨ r = .setLen → s.op = .encode) ∧
    (s.op = .init → (r = .finish ↔ s.seq.ph.toNat = 23)) ∧ (s.op = .sleep → (r = .finish ↔ s.seq.ph.toNat = 9)) := by
  have key : ∀ o ∈ allOps, ∀ n < 24, ∀ r ∈ (phaseTable o)[n]?,
      (r = .fill ∨ r = .scan ∨ r = .setLen → o = .encode) ∧ (o = .init → (r = .finish ↔ n = 23)) ∧
      (o = .sleep → (r = .finish ↔ n = 9)) := by
    decide +kernel
  exact key s.op (mem_allOps _) _ (row_lt h) r h

end Sys2Proof.Machine
end

