-- ==== Sys2Proof/Tests/Slice0.lean ====
section
/-! SUPPORT. The model's own tests: ill-formed terms refused, words written out from the encoding tables, one step of each
instruction, and a witness for the hypotheses of each statement. Expected values are from spec/95_test_vectors.md and the
rules named. -/

namespace Sys2Proof.Tests

open Sys2Proof.Machine

/-- An idle block in a session state, with both handles held and DC left at 1. -/
def idle (st : Session) : State := { State.reset with session := st, gpioOpen := true, spiOpen := true, dcL := true }

/-- An idle block that is given one request. -/
def asked (st : Session) (w : BitVec 12) : State := { idle st with host := [.request w] }

/-- A running block at a row, a sub-step and a byte index. -/
def running (op : Op) (ph sub idx : Nat) : State :=
  { idle .initialized with
    op := op
    csL := decide (sub < 2)
    seq := ⟨BitVec.ofNat 6 ph, BitVec.ofNat 2 sub, BitVec.ofNat 16 idx, 0#8, 0#7, 104#8, false⟩ }

/-- The outcome is a next state with a property. -/
def gives (o : Host.Outcome State Fault Refusal) (p : State → Bool) : Bool :=
  match o with
  | .next t => p t
  | .fault _ => false
  | .refused _ => false

/-! ## Well-formedness -/

theorem test_wf_request_13_bits_refused : requestWordWf 4096 = false ∧ requestWordWf 4095 = true := by decide
theorem test_wf_wire_9_bits_refused : wireWordWf 256 = false ∧ wireWordWf 255 = true := by decide
theorem test_wf_pin_map_shared_pin_refused :
    (Config.PinMap.mk 17 25 8 24).wf = true ∧ (Config.PinMap.mk 17 25 8 8).wf = false := by decide
theorem test_wf_empty_data_frame_refused : dataFrameWf [] = false ∧ dataFrameWf [0x00#8] = true := by decide
theorem test_wf_decode_refuses_wide_word : decodeTableWord 16 0b1_0001_00000000 = none := by decide
theorem test_wf_decode_refuses_unknown_command : decodeTableWord 8 0b11111111 = none := by decide

/-! ## Decoding: a word of each row, from the bits of 30_encoding R94, R105 to R115 -/

theorem test_decode_boosterSoftStart : decodeTableWord 8 0b00000110 = some .boosterSoftStart := by decide
theorem test_decode_powerOn : decodeTableWord 8 0b00000100 = some .powerOn := by decide
theorem test_decode_panelSetting : decodeTableWord 8 0b00000000 = some .panelSetting := by decide
theorem test_decode_vcomAndInterval : decodeTableWord 8 0b01010000 = some .vcomAndInterval := by decide
theorem test_decode_resolutionSetting : decodeTableWord 8 0b01100001 = some .resolutionSetting := by decide
theorem test_decode_displayBlack : decodeTableWord 8 0b00010000 = some .displayBlack := by decide
theorem test_decode_displayRed : decodeTableWord 8 0b00010011 = some .displayRed := by decide
theorem test_decode_refresh : decodeTableWord 8 0b00010010 = some .refresh := by decide
theorem test_decode_powerOff : decodeTableWord 8 0b00000010 = some .powerOff := by decide
theorem test_decode_deepSleep : decodeTableWord 8 0b00000111 = some .deepSleep := by decide
theorem test_decode_reset : decodeTableWord 12 0b0001_00000000 = some (.reset 0b00000000#8) := by decide
theorem test_decode_init : decodeTableWord 12 0b0010_11111111 = some (.init 0b11111111#8) := by decide
theorem test_decode_display : decodeTableWord 12 0b0011_11000111 = some (.display 0b11000111#8) := by decide
theorem test_decode_clear : decodeTableWord 12 0b0100_11111111 = some (.clear 0b11111111#8) := by decide
theorem test_decode_readbusy : decodeTableWord 12 0b0101_00000001 = some (.readbusy 0b00000001#8) := by decide
theorem test_decode_sleep : decodeTableWord 12 0b0110_10000000 = some (.sleep 0b10000000#8) := by decide
theorem test_decode_sendcmd : decodeTableWord 12 0b0111_00010010 = some (.sendcmd 0b00010010#8) := by decide
theorem test_decode_senddata : decodeTableWord 12 0b1000_10100101 = some (.senddata 0b10100101#8) := by decide
theorem test_decode_sendbuf : decodeTableWord 12 0b1001_01010101 = some (.sendbuf 0b01010101#8) := by decide
theorem test_decode_encode : decodeTableWord 12 0b1010_00000011 = some (.encode 0b00000011#8) := by decide
theorem test_decode_reserved0 : decodeTableWord 12 0b0000_00000000 = some (.reserved0 0b00000000#8) := by decide
theorem test_decode_reservedB : decodeTableWord 12 0b1011_00000001 = some (.reservedB 0b00000001#8) := by decide
theorem test_decode_reservedC : decodeTableWord 12 0b1100_10000000 = some (.reservedC 0b10000000#8) := by decide
theorem test_decode_reservedD : decodeTableWord 12 0b1101_11111111 = some (.reservedD 0b11111111#8) := by decide
theorem test_decode_reservedE : decodeTableWord 12 0b1110_01111110 = some (.reservedE 0b01111110#8) := by decide
theorem test_decode_reservedF : decodeTableWord 12 0b1111_00000000 = some (.reservedF 0b00000000#8) := by decide

/-! ## One step: the panel commands transfer their code at their row (R105 to R114, 40_transport R131) -/

theorem test_step_boosterSoftStart :
    gives (exec .boosterSoftStart { running .init 8 2 0 with xferIn := [.answer .ok] })
      (fun t => t.trace == [.xfer [0b00000110#8] .ok] && t.seq.sub == 3#2 && !t.seq.xfail) = true := by decide
theorem test_step_powerOn :
    gives (exec .powerOn { running .init 12 2 0 with xferIn := [.answer .ok] })
      (fun t => t.trace == [.xfer [0b00000100#8] .ok] && t.seq.sub == 3#2 && !t.seq.xfail) = true := by decide
theorem test_step_panelSetting :
    gives (exec .panelSetting { running .init 14 2 0 with xferIn := [.answer .ok] })
      (fun t => t.trace == [.xfer [0b00000000#8] .ok] && t.seq.sub == 3#2 && !t.seq.xfail) = true := by decide
theorem test_step_vcomAndInterval :
    gives (exec .vcomAndInterval { running .init 16 2 0 with xferIn := [.answer .ok] })
      (fun t => t.trace == [.xfer [0b01010000#8] .ok] && t.seq.sub == 3#2 && !t.seq.xfail) = true := by decide
theorem test_step_resolutionSetting :
    gives (exec .resolutionSetting { running .init 18 2 0 with xferIn := [.answer .ok] })
      (fun t => t.trace == [.xfer [0b01100001#8] .ok] && t.seq.sub == 3#2 && !t.seq.xfail) = true := by decide
theorem test_step_displayBlack :
    gives (exec .displayBlack { running .display 0 2 0 with xferIn := [.answer .ok] })
      (fun t => t.trace == [.xfer [0b00010000#8] .ok] && t.seq.sub == 3#2 && !t.seq.xfail) = true := by decide
theorem test_step_displayRed :
    gives (exec .displayRed { running .clear 2 2 0 with xferIn := [.answer .ok] })
      (fun t => t.trace == [.xfer [0b00010011#8] .ok] && t.seq.sub == 3#2 && !t.seq.xfail) = true := by decide
theorem test_step_refresh :
    gives (exec .refresh { running .display 4 2 0 with xferIn := [.answer .ok] })
      (fun t => t.trace == [.xfer [0b00010010#8] .ok] && t.seq.sub == 3#2 && !t.seq.xfail) = true := by decide
theorem test_step_powerOff :
    gives (exec .powerOff { running .sleep 0 2 0 with xferIn := [.answer .ok] })
      (fun t => t.trace == [.xfer [0b00000010#8] .ok] && t.seq.sub == 3#2 && !t.seq.xfail) = true := by decide
theorem test_step_deepSleep :
    gives (exec .deepSleep { running .sleep 2 2 0 with xferIn := [.answer .ok] })
      (fun t => t.trace == [.xfer [0b00000111#8] .ok] && t.seq.sub == 3#2 && !t.seq.xfail) = true := by decide

/-! ## One step: acceptance and rejection (41_protocol R153, R171; vectors V1 to V5, T1 to T10) -/

theorem test_accept_reset :
    gives (exec (.reset 0b00000000#8) (idle .initialized)) (fun t => t.op == .reset && t.arg == 0b00000000#8 && t.seq.ph == 0#6 && t.trace == []) = true := by
  decide +kernel
theorem test_reject_reset :
    gives (exec (.reset 0b00000000#8) (idle .uninitialized)) (fun t => t.trace == [.ret 0b0001#4 2#2] && t.err == 2#2 && t.op == .idle) = true := by
  decide
theorem test_accept_init :
    gives (exec (.init 0b11111111#8) (idle .sleeping)) (fun t => t.op == .init && t.arg == 0b11111111#8 && t.seq.ph == 0#6 && t.trace == []) = true := by
  decide +kernel
theorem test_reject_init :
    gives (exec (.init 0b11111111#8) (idle .initialized)) (fun t => t.trace == [.ret 0b0010#4 2#2] && t.err == 2#2 && t.op == .idle) = true := by
  decide
theorem test_accept_display :
    gives (exec (.display 0b11000111#8) (idle .initialized)) (fun t => t.op == .display && t.arg == 0b11000111#8 && t.seq.ph == 0#6 && t.trace == []) = true := by
  decide +kernel
theorem test_reject_display :
    gives (exec (.display 0b11000111#8) (idle .sleeping)) (fun t => t.trace == [.ret 0b0011#4 2#2] && t.err == 2#2 && t.op == .idle) = true := by
  decide
theorem test_accept_clear :
    gives (exec (.clear 0b11111111#8) (idle .initialized)) (fun t => t.op == .clear && t.arg == 0b11111111#8 && t.seq.ph == 0#6 && t.trace == []) = true := by
  decide +kernel
theorem test_reject_clear :
    gives (exec (.clear 0b11111111#8) (idle .uninitialized)) (fun t => t.trace == [.ret 0b0100#4 2#2] && t.err == 2#2 && t.op == .idle) = true := by
  decide
theorem test_accept_readbusy :
    gives (exec (.readbusy 0b00000001#8) (idle .initialized)) (fun t => t.op == .readbusy && t.arg == 0b00000001#8 && t.seq.ph == 0#6 && t.trace == []) = true := by
  decide +kernel
theorem test_reject_readbusy :
    gives (exec (.readbusy 0b00000001#8) (idle .sleeping)) (fun t => t.trace == [.ret 0b0101#4 2#2] && t.err == 2#2 && t.op == .idle) = true := by
  decide
theorem test_accept_sleep :
    gives (exec (.sleep 0b10000000#8) (idle .initialized)) (fun t => t.op == .sleep && t.arg == 0b10000000#8 && t.seq.ph == 0#6 && t.trace == []) = true := by
  decide +kernel
theorem test_reject_sleep :
    gives (exec (.sleep 0b10000000#8) (idle .sleeping)) (fun t => t.trace == [.ret 0b0110#4 2#2] && t.err == 2#2 && t.op == .idle) = true := by
  decide
theorem test_accept_sendcmd :
    gives (exec (.sendcmd 0b00010010#8) (idle .initialized)) (fun t => t.op == .sendcmd && t.arg == 0b00010010#8 && t.seq.ph == 0#6 && t.trace == []) = true := by
  decide +kernel
theorem test_reject_sendcmd :
    gives (exec (.sendcmd 0b00010010#8) (idle .uninitialized)) (fun t => t.trace == [.ret 0b0111#4 2#2] && t.err == 2#2 && t.op == .idle) = true := by
  decide
theorem test_accept_senddata :
    gives (exec (.senddata 0b10100101#8) (idle .initialized)) (fun t => t.op == .senddata && t.arg == 0b10100101#8 && t.seq.ph == 0#6 && t.trace == []) = true := by
  decide +kernel
theorem test_reject_senddata :
    gives (exec (.senddata 0b10100101#8) (idle .sleeping)) (fun t => t.trace == [.ret 0b1000#4 2#2] && t.err == 2#2 && t.op == .idle) = true := by
  decide
theorem test_reject_sendbuf :
    gives (exec (.sendbuf 0b01010101#8) (idle .sleeping)) (fun t => t.trace == [.ret 0b1001#4 2#2] && t.err == 2#2 && t.op == .idle) = true := by
  decide
theorem test_accept_encode :
    gives (exec (.encode 0b00000011#8) (idle .sleeping)) (fun t => t.op == .encode && t.arg == 0b00000011#8 && t.seq.ph == 0#6 && t.trace == []) = true := by
  decide +kernel
theorem test_bad_reserved0 :
    gives (exec (.reserved0 0b00000000#8) (idle .initialized))
      (fun t => t.trace == [.ret 0b0000#4 3#2] && t.err == 3#2 && t.done && t.arg == 0b00000000#8 && t.op == .idle) = true := by
  decide
theorem test_bad_reservedB :
    gives (exec (.reservedB 0b00000001#8) (idle .initialized))
      (fun t => t.trace == [.ret 0b1011#4 3#2] && t.err == 3#2 && t.done && t.arg == 0b00000001#8 && t.op == .idle) = true := by
  decide
theorem test_bad_reservedC :
    gives (exec (.reservedC 0b10000000#8) (idle .initialized))
      (fun t => t.trace == [.ret 0b1100#4 3#2] && t.err == 3#2 && t.done && t.arg == 0b10000000#8 && t.op == .idle) = true := by
  decide
theorem test_bad_reservedD :
    gives (exec (.reservedD 0b11111111#8) (idle .initialized))
      (fun t => t.trace == [.ret 0b1101#4 3#2] && t.err == 3#2 && t.done && t.arg == 0b11111111#8 && t.op == .idle) = true := by
  decide
theorem test_bad_reservedE :
    gives (exec (.reservedE 0b01111110#8) (idle .initialized))
      (fun t => t.trace == [.ret 0b1110#4 3#2] && t.err == 3#2 && t.done && t.arg == 0b01111110#8 && t.op == .idle) = true := by
  decide
theorem test_bad_reservedF :
    gives (exec (.reservedF 0b00000000#8) (idle .initialized))
      (fun t => t.trace == [.ret 0b1111#4 3#2] && t.err == 3#2 && t.done && t.arg == 0b00000000#8 && t.op == .idle) = true := by
  decide

/-- T7: an empty buffer is BadRequest. -/
theorem test_sendbuf_empty :
    gives (exec (.sendbuf 0#8) (idle .initialized)) (fun t => t.trace == [.ret 9#4 3#2] && t.err == 3#2) = true := by
  decide

/-- T6: the fourth step of a failed frame writes CS back to 1, and the step after it returns TransferFailure. -/
theorem test_failed_frame_closes :
    gives (step { running .sendcmd 0 3 0 with arg := 0xFF#8, seq := ⟨0#6, 3#2, 0#16, 0#8, 0#7, 0#8, true⟩ })
      (fun t => t.trace == [.pin .cs true] && t.csL && t.op == .sendcmd && !t.done) = true := by
  decide
theorem test_failed_frame_returns :
    gives (step { running .sendcmd 0 3 0 with csL := true, seq := ⟨0#6, 3#2, 0#16, 0#8, 0#7, 0#8, true⟩ })
      (fun t => t.trace == [.ret 7#4 1#2] && t.csL && t.err == 1#2 && t.op == .idle && t.session == .initialized) =
      true := by
  decide

/-- V16: in Sleeping STATUS is 0x2A and PINS 0x0C. -/
theorem test_status_after_sleep :
    { idle .sleeping with spiOpen := false, lastBusy := true, rstL := false, dcL := false }.status = 0x2A ∧
    { idle .sleeping with spiOpen := false, lastBusy := true, rstL := false, dcL := false }.pins = 0x0C := by decide

/-- E7: raster 104 by 212, black at (5, 100): byte 1300 loses mask 0x04. -/
theorem test_pack_e7 : packIndex (packStride 104#16) 100 5 / 8 = 1300 ∧ packMask 5 = 0x04#8 := by decide

/-- E13a: raster 51 by 104, black at (3, 1): byte 6 loses mask 0x10; E17: 300 by 300, (0, 104) is byte 2756. -/
theorem test_pack_e13a_e17 :
    packIndex (packStride 51#16) 1 3 / 8 = 6 ∧ packMask 3 = 0x10#8 ∧ packIndex (packStride 300#16) 104 0 / 8 = 2756 := by
  decide

/-- E11: 127 is black, 128 is white. -/
theorem test_threshold : isBlack 127#8 = true ∧ isBlack 128#8 = false := by decide

/-- E19: the step of SCAN at a black pixel clears the bit of PLANE1 for request 0xA01. -/
theorem test_scan_step :
    gives (step { running .encode 1 0 0 with
                  arg := 0x01#8, rw := 104#16, rh := 212#16, raster := .cells 0xFF#8 [(65536 * 100 + 5, 0x00#8)],
                  plane1 := [(1300, 0xFF#8)], seq := ⟨1#6, 0#2, 0#16, 100#8, 5#7, 104#8, false⟩ })
      (fun t => t.plane1 == [(1300, 0xFB#8)] && t.plane0 == [] && t.seq.x == 6#7 && t.trace == []) = true := by
  decide +kernel

/-! ## Witnesses: for each statement with hypotheses, a state and operands that meet them, clause by clause -/

/-- A block to which the collaborator answers `ok` n times and BUSY reads 0 m times, then 1. -/
def fed (n m : Nat) (s : State) : State :=
  { s with xferIn := List.replicate n (.answer .ok), busyIn := List.replicate m false ++ [true] }

theorem fed_xfersOk (n m : Nat) (s : State) : (fed n m s).xfersOk n := by
  intro k hk
  simp [State.xferAt, fed, hk]

theorem fed_busyFor (n m : Nat) (s : State) : (fed n m s).busyFor m := by
  constructor
  · intro k hk
    simp [State.busyAt, fed, List.getElem?_append, hk]
  · simp [State.busyAt, fed]

theorem quiet_of_nil {s : State} (h : s.rstIn = []) : s.quiet := by
  intro v hv
  rw [h] at hv
  cases hv

theorem fed_ready (n m : Nat) (st : Session) (w : BitVec 12) : (fed n m (asked st w)).ready w :=
  ⟨rfl, quiet_of_nil rfl, [], rfl⟩

/-- What an outcome gives is a next state. -/
theorem next_of_gives {o : Host.Outcome State Fault Refusal} {p : State → Bool} (h : gives o p = true) :
    ∃ t, o = .next t ∧ p t = true := by
  cases o with
  | next t => exact ⟨t, rfl, h⟩
  | fault r => cases h
  | refused r => cases h

theorem witness_StepRunsTheDecodedInstruction :
    ((asked .initialized 0x712#12).inReset = false ∧ (asked .initialized 0x712#12).op = .idle ∧
      (asked .initialized 0x712#12).host = .request 0x712#12 :: []) ∧
    ((running .display 4 0 0).inReset = false ∧ (running .display 4 0 0).op ≠ .idle ∧
      (running .display 4 0 0).commandByte? = some 0x12#8 ∧ decodeWire 0x12#8 = .ok .refresh) :=
  ⟨⟨rfl, rfl, rfl⟩, rfl, by decide, rfl, rfl⟩

theorem witness_IdleBlockWaits :
    (idle .sleeping).inReset = false ∧ (idle .sleeping).op = .idle ∧ (idle .sleeping).host = [] := ⟨rfl, rfl, rfl⟩

theorem witness_HardwareResetFromAnywhere : { running .sleep 4 0 0 with rstIn := [false] }.inReset = true := rfl

theorem witness_AcceptanceInTheOrderOfChecks :
    (idle .initialized).op = .idle ∧ reqOp 0x0FF#12 = 0x0#4 ∧ (0xB#4 ≤ reqOp 0xB00#12) ∧ (0xB#4 ≤ reqOp 0xFFF#12) ∧
    (reqOp 0x112#12 = Op.reset.code ∧ ¬ admits .reset (idle .sleeping).session) ∧
    (reqOp 0x900#12 = Op.sendbuf.code ∧ admits .sendbuf (idle .initialized).session ∧
      ¬ (idle .initialized).lengthOk .sendbuf) ∧
    (reqOp 0x200#12 = Op.init.code ∧ admits .init (idle .uninitialized).session ∧
      (idle .uninitialized).lengthOk .init) ∧
    (admits .sendbuf (idle .initialized).session ∧ { idle .initialized with dlen := 1#16 }.lengthOk .sendbuf) :=
  ⟨rfl, rfl, by decide, by decide, ⟨rfl, by simp [admits, idle]⟩,
    ⟨rfl, by simp [admits, idle], by simp [State.lengthOk, idle, State.reset]⟩,
    ⟨rfl, by simp [admits, idle], by simp [State.lengthOk]⟩,
    ⟨by simp [admits, idle], fun _ => ⟨by decide, Nat.le_add_left 1 _⟩⟩⟩

theorem witness_HostOperationIsAdmittedByState :
    (Op.encode, Instr.encode) ∈ hostOps ∧ (idle .sleeping).op = .idle ∧ admits .encode (idle .sleeping).session ∧
    (idle .sleeping).lengthOk .encode ∧ (Op.display, Instr.display) ∈ hostOps ∧
    ¬ admits .display (idle .sleeping).session :=
  ⟨by simp [hostOps], rfl, by simp [admits], by simp [State.lengthOk], by simp [hostOps], by simp [admits, idle]⟩

theorem witness_ReservedCodesAreBadRequests :
    (0x0#4, Instr.reserved0) ∈ reservedOps ∧ (0xF#4, Instr.reservedF) ∈ reservedOps ∧ (idle .uninitialized).op = .idle :=
  ⟨by simp [reservedOps], by simp [reservedOps], rfl⟩

theorem witness_SendbufLengthIsChecked :
    ((idle .initialized).op = .idle ∧ (idle .initialized).dlen = 0#16 ∧ (idle .initialized).session = .initialized) ∧
    ((idle .sleeping).op = .idle ∧ (idle .sleeping).dlen = 0#16 ∧ (idle .sleeping).session ≠ .initialized) :=
  ⟨⟨rfl, rfl, rfl⟩, rfl, rfl, by decide⟩

theorem witness_RunningBlockAcceptsNoRequest :
    (running .reset 0 0 0).op ≠ .idle ∧ (Op.reset, Instr.reset) ∈ hostOps ∧ (0x0#4, Instr.reserved0) ∈ reservedOps :=
  ⟨by decide, by simp [hostOps], by simp [reservedOps]⟩

theorem witness_FrameOfTheRequests :
    (Instr.reset 0#8).space = .host ∧ ∃ t, exec (.reset 0#8) (idle .initialized) = .next t := ⟨rfl, _, rfl⟩

theorem witness_CommandFrameSelects :
    (0x12#8, Instr.refresh) ∈ panelCommands ∧ (running .display 4 0 0).commandByte? = some 0x12#8 ∧
    (running .display 4 0 0).seq.sub = 0#2 ∧ (running .display 4 1 0).commandByte? = some 0x12#8 ∧
    (running .display 4 1 0).seq.sub = 1#2 := ⟨by simp [panelCommands], rfl, rfl, rfl, rfl⟩

theorem witness_CommandFrameTransfers :
    (0x07#8, Instr.deepSleep) ∈ panelCommands ∧
    ({ running .sleep 2 2 0 with xferIn := [.answer .fail] }.commandByte? = some 0x07#8 ∧
      { running .sleep 2 2 0 with xferIn := [.answer .fail] }.seq.sub = 2#2 ∧
      { running .sleep 2 2 0 with xferIn := [.answer .fail] }.xferAt 0 = .answer .fail) ∧
    ({ running .sleep 2 2 0 with xferIn := [.pending] }.commandByte? = some 0x07#8 ∧
      { running .sleep 2 2 0 with xferIn := [.pending] }.seq.sub = 2#2 ∧
      { running .sleep 2 2 0 with xferIn := [.pending] }.xferAt 0 = .pending) :=
  ⟨by simp [panelCommands], ⟨rfl, rfl, rfl⟩, rfl, rfl, rfl⟩

/-- A state at the fourth step of a frame of SENDCMD of 0x10, with XFAIL as given. -/
def closing (f : Bool) : State :=
  { running .sendcmd 0 3 0 with arg := 0x10#8, seq := ⟨0#6, 3#2, 0#16, 0#8, 0#7, 0#8, f⟩ }

theorem witness_CommandFrameCloses :
    (0x10#8, Instr.displayBlack) ∈ panelCommands ∧
    (∀ f, (closing f).commandByte? = some 0x10#8 ∧ (closing f).seq.sub = 3#2 ∧ (closing f).seq.xfail = f ∧
      (closing f).csL = false) ∧
    ({ closing true with csL := true }.commandByte? = some 0x10#8 ∧ { closing true with csL := true }.seq.sub = 3#2 ∧
      { closing true with csL := true }.seq.xfail = true ∧ { closing true with csL := true }.csL = true) :=
  ⟨by simp [panelCommands], fun _ => ⟨rfl, rfl, rfl, rfl⟩, rfl, rfl, rfl, rfl⟩

theorem witness_FrameOfThePanelCommands :
    Instr.displayBlack.space = .wire ∧ ∃ t, exec .displayBlack (closing true) = .next t := ⟨rfl, _, rfl⟩

theorem witness_PanelCommandOnlyAtItsRow :
    (0x10#8, Instr.displayBlack) ∈ panelCommands ∧ (running .display 4 0 0).commandByte? ≠ some 0x10#8 :=
  ⟨by simp [panelCommands], by decide⟩

/-- A block at a row of a frame, SUB `k`, whose transfer is answered `r` after one ask without an answer. -/
def framing (op : Op) (ph k : Nat) (r : XferResult) : State :=
  { running op ph k 0 with len0 := 1#16, xferIn := [.pending, .answer r] }

/-- A block at SUB 3 of a frame with its result in XFAIL. -/
def framed (op : Op) (ph : Nat) (f : Bool) : State :=
  { running op ph 3 0 with seq := ⟨BitVec.ofNat 6 ph, 3#2, 0#16, 0#8, 0#7, 0#8, f⟩ }

theorem framing_frameGets (op : Op) (ph : Nat) (r : XferResult) :
    ∀ k < 3, (framing op ph k r).quiet ∧ (framing op ph k r).frameGets 1 r ∧ (framing op ph k r).seq.sub.toNat = k ∧
      (2 ≤ (framing op ph k r).seq.sub.toNat → (framing op ph k r).csL = false) := by
  intro k hk
  have h : k = 0 ∨ k = 1 ∨ k = 2 := by omega
  have hx : (framing op ph k r).answered 0 1 r := ⟨by intro j hj; obtain rfl : j = 0 := by omega
                                                      rfl, rfl⟩
  refine ⟨quiet_of_nil rfl, ?_⟩
  rcases h with rfl | rfl | rfl
  · exact ⟨hx, rfl, fun h => absurd h (by simp [framing, running])⟩
  · exact ⟨hx, rfl, fun h => absurd h (by simp [framing, running])⟩
  · exact ⟨hx, rfl, fun _ => rfl⟩

theorem framed_frameGets (op : Op) (ph : Nat) (r : XferResult) :
    (framed op ph (r == .fail)).quiet ∧ (framed op ph (r == .fail)).frameGets 0 r ∧
      (framed op ph (r == .fail)).csL = false :=
  ⟨quiet_of_nil rfl, ⟨rfl, rfl⟩, rfl⟩

theorem witness_CommandRowSendsItsFrame :
    (∀ r, ∀ k < 3, (framing .display 4 k r).quiet ∧ (framing .display 4 k r).frameGets 1 r ∧
      (framing .display 4 k r).seq.sub.toNat = k ∧
      (2 ≤ (framing .display 4 k r).seq.sub.toNat → (framing .display 4 k r).csL = false)) ∧
    (∀ r k, (framing .display 4 k r).op ≠ .idle ∧ (framing .display 4 k r).commandByte? = some 0x12#8) ∧
    (∀ r, (framed .display 4 (r == .fail)).quiet ∧ (framed .display 4 (r == .fail)).frameGets 0 r ∧
      (framed .display 4 (r == .fail)).csL = false) ∧
    ∀ f, (framed .display 4 f).op ≠ .idle ∧ (framed .display 4 f).commandByte? = some 0x12#8 :=
  ⟨framing_frameGets _ _, fun _ _ => ⟨nofun, rfl⟩, framed_frameGets _ _, fun _ => ⟨nofun, rfl⟩⟩

theorem witness_DataRowSendsOneFrame :
    (∀ r, ∀ k < 3, (framing .sleep 3 k r).quiet ∧ (framing .sleep 3 k r).frameGets 1 r ∧
      (framing .sleep 3 k r).seq.sub.toNat = k ∧
      (2 ≤ (framing .sleep 3 k r).seq.sub.toNat → (framing .sleep 3 k r).csL = false)) ∧
    (∀ r k, (framing .sleep 3 k r).op ≠ .idle ∧ (framing .sleep 3 k r).row? = some (.data (.const 0xA5#8))) ∧
    (∀ r, (framed .sleep 3 (r == .fail)).quiet ∧ (framed .sleep 3 (r == .fail)).frameGets 0 r ∧
      (framed .sleep 3 (r == .fail)).csL = false) ∧
    ∀ f, (framed .sleep 3 f).op ≠ .idle ∧ (framed .sleep 3 f).row? = some (.data (.const 0xA5#8)) :=
  ⟨framing_frameGets _ _, fun _ _ => ⟨nofun, rfl⟩, framed_frameGets _ _, fun _ => ⟨nofun, rfl⟩⟩

/-- DISPLAY at its first LOOPDATA row, two bytes to send, with the answers given. -/
def looping (l : List XferAnswer) : State := { running .display 1 0 0 with len0 := 2#16, xferIn := l }

theorem witness_LoopRowSendsItsBytesInOrder :
    (∀ l, (looping l).op ≠ .idle ∧ (looping l).quiet ∧ (looping l).row? = some (.loopData .plane0) ∧
      (looping l).seq.sub = 0#2 ∧ (looping l).seq.idx = 0#16 ∧ LoopForm.plane0.count (looping l) = 2) ∧
    (looping [.answer .ok, .pending, .answer .ok]).xfersOkAfter id 2 ∧
    ((looping [.answer .ok, .pending, .answer .fail]).xfersOkAfter id 1 ∧
      (looping [.answer .ok, .pending, .answer .fail]).answered (asksOf id 1) (id 1) .fail) ∧
    (∀ k < 3, (framing .display 1 k .ok).quiet ∧ (framing .display 1 k .ok).frameGets 1 .ok ∧
      (framing .display 1 k .ok).seq.sub.toNat = k ∧
      (2 ≤ (framing .display 1 k .ok).seq.sub.toNat → (framing .display 1 k .ok).csL = false)) ∧
    (∀ k, (framing .display 1 k .ok).row? = some (.loopData .plane0) ∧
      (framing .display 1 k .ok).seq.idx.toNat < LoopForm.plane0.count (framing .display 1 k .ok)) ∧
    (running .display 3 0 0).row? = some (.loopData .plane1) ∧ LoopForm.plane1.count (running .display 3 0 0) = 0 ∧
    (running .clear 1 0 0).row? = some (.loopData .fill) := by
  refine ⟨fun _ => ⟨nofun, quiet_of_nil rfl, rfl, rfl, rfl, rfl⟩, ?_, ⟨?_, ?_⟩, framing_frameGets _ _ _,
    fun _ => ⟨rfl, Nat.lt_succ_self 0⟩, rfl, rfl, rfl⟩
  · unfold State.xfersOkAfter State.answered; decide
  · unfold State.xfersOkAfter State.answered; decide
  · unfold State.answered; decide

theorem witness_FailedTransferStillDeselects :
    (∀ op ph, ∀ k < 3, (framing op ph k .fail).quiet ∧ (framing op ph k .fail).frameGets 1 .fail ∧
      (framing op ph k .fail).seq.sub.toNat = k ∧
      (2 ≤ (framing op ph k .fail).seq.sub.toNat → (framing op ph k .fail).csL = false)) ∧
    (∀ k, (framing .sendcmd 0 k .fail).row? = some (.cmd .arg) ∧ (framing .senddata 0 k .fail).row? = some (.data .arg) ∧
      (framing .display 1 k .fail).row? = some (.loopData .plane0) ∧
      (framing .display 1 k .fail).seq.idx.toNat < LoopForm.plane0.count (framing .display 1 k .fail)) ∧
    ((framed .sendcmd 0 true).row? = some (.cmd .arg) ∧ (Row.cmd .arg).sendsFrames = true ∧
      (framed .sendcmd 0 true).frameGets 0 .fail ∧ (framed .sendcmd 0 true).seq.sub = 3#2 ∧
      (framed .sendcmd 0 true).csL = false ∧ { framed .sendcmd 0 true with csL := true }.frameGets 0 .fail) :=
  ⟨fun _ _ => framing_frameGets _ _ _, fun _ => ⟨rfl, rfl, rfl, Nat.lt_succ_self 0⟩,
    rfl, rfl, ⟨rfl, rfl⟩, rfl, rfl, rfl, rfl⟩

theorem witness_UnfinishedTransferHolds :
    { running .sendcmd 0 2 0 with xferIn := [.pending, .pending] }.op ≠ .idle ∧
    { running .sendcmd 0 2 0 with xferIn := [.pending, .pending] }.quiet ∧
    { running .sendcmd 0 2 0 with xferIn := [.pending, .pending] }.row? = some (.cmd .arg) ∧
    (Row.cmd .arg).sendsFrames = true ∧ { running .sendcmd 0 2 0 with xferIn := [.pending, .pending] }.seq.sub = 2#2 ∧
    ∀ k < 2, { running .sendcmd 0 2 0 with xferIn := [.pending, .pending] }.xferAt k = .pending :=
  ⟨by decide, quiet_of_nil rfl, rfl, rfl, rfl, by decide⟩

theorem witness_RowsOfOneStep :
    (∀ op ph, (running op ph 0 0).inReset = false ∧ (running op ph 0 0).op = op) ∧
    (running .init 0 0 0).row? = some (.acq .gpio) ∧ (running .init 1 0 0).row? = some (.acq .spi) ∧
    (running .sleep 5 0 0).row? = some .relSpi ∧ (running .sleep 7 0 0).row? = some (.pin .dc false) ∧
    (running .reset 3 0 0).row? = some (.delay 2) ∧ (running .sleep 8 0 0).row? = some (.setState .sleeping) :=
  ⟨fun _ _ => ⟨rfl, rfl⟩, rfl, rfl, rfl, rfl, rfl, rfl⟩

theorem witness_WaitRowPollsBusy :
    (running .readbusy 0 0 0).inReset = false ∧ (running .readbusy 0 0 0).op ≠ .idle ∧
    (running .readbusy 0 0 0).row? = some .waitBusy ∧ (running .readbusy 0 0 0).seq.sub = 0#2 ∧
    (running .readbusy 0 1 0).row? = some .waitBusy ∧ (running .readbusy 0 1 0).seq.sub = 1#2 :=
  ⟨rfl, by decide, rfl, rfl, rfl, rfl⟩

theorem witness_EndRowReturns :
    (running .init 23 0 0).inReset = false ∧ (running .init 23 0 0).op ≠ .idle ∧
    (running .init 23 0 0).row? = some .finish := ⟨rfl, by decide, rfl⟩

theorem witness_ResetPulsesTheLine :
    (asked .initialized 0x1FF#12).ready 0x1FF#12 ∧ reqOp 0x1FF#12 = 0x1#4 ∧
    (asked .initialized 0x1FF#12).session = .initialized := ⟨⟨rfl, quiet_of_nil rfl, [], rfl⟩, rfl, rfl⟩

theorem witness_InitConfiguresThePanel :
    (fed 13 1 (asked .sleeping 0x200#12)).ready 0x200#12 ∧ reqOp 0x200#12 = 0x2#4 ∧
    (fed 13 1 (asked .sleeping 0x200#12)).session ≠ .initialized ∧ (fed 13 1 (asked .sleeping 0x200#12)).xfersOk 13 ∧
    (fed 13 1 (asked .sleeping 0x200#12)).busyFor 1 :=
  ⟨fed_ready _ _ _ _, rfl, by decide, fed_xfersOk _ _ _, fed_busyFor _ _ _⟩

theorem witness_DisplaySendsBothPlanes :
    (fed 3 0 (asked .initialized 0x300#12)).ready 0x300#12 ∧ reqOp 0x300#12 = 0x3#4 ∧
    (fed 3 0 (asked .initialized 0x300#12)).session = .initialized ∧
    (fed 3 0 (asked .initialized 0x300#12)).xfersOk (3 + planeBound (fed 3 0 (asked .initialized 0x300#12)).len0 +
      planeBound (fed 3 0 (asked .initialized 0x300#12)).len1) ∧
    (fed 3 0 (asked .initialized 0x300#12)).busyFor 0 :=
  ⟨fed_ready _ _ _ _, rfl, rfl, fed_xfersOk _ _ _, fed_busyFor _ _ _⟩

theorem witness_ClearSendsTheFillByte :
    (fed 5515 0 (asked .initialized 0x4FF#12)).ready 0x4FF#12 ∧ reqOp 0x4FF#12 = 0x4#4 ∧
    (fed 5515 0 (asked .initialized 0x4FF#12)).session = .initialized ∧
    (fed 5515 0 (asked .initialized 0x4FF#12)).xfersOk 5515 ∧ (fed 5515 0 (asked .initialized 0x4FF#12)).busyFor 0 :=
  ⟨fed_ready _ _ _ _, rfl, rfl, fed_xfersOk _ _ _, fed_busyFor _ _ _⟩

/-- A block with n bytes in both planes, all the same. -/
def full (n : Nat) (b : Byte) (s : State) : State :=
  { s with
    len0 := BitVec.ofNat 16 n
    len1 := BitVec.ofNat 16 n
    plane0 := (List.range n).map fun k => (k, b)
    plane1 := (List.range n).map fun k => (k, b) }

theorem find?_full (b : Byte) (n k m : Nat) (h : k < n) :
    Memory.find? ((List.range' m n).map fun k => (k, b)) (m + k) = some b := by
  induction n generalizing k m with
  | zero => omega
  | succ n ih =>
    rw [List.range'_succ, List.map_cons, Memory.find?]
    cases k with
    | zero => simp
    | succ k =>
      rw [if_neg (by omega), show m + (k + 1) = m + 1 + k by omega]
      exact ih k (m + 1) (by omega)

theorem full_bufByte (n : Nat) (b : Byte) (s : State) (k : Nat) (h : k < n) :
    (full n b s).bufByte .plane0 k = b ∧ (full n b s).bufByte .plane1 k = b := by
  have e : Memory.find? ((List.range n).map fun k => (k, b)) k = some b := by
    have := find?_full b n k 0 h
    rwa [← List.range_eq_range', Nat.zero_add] at this
  simp [State.bufByte, State.buf, full, e]

theorem witness_ClearEqualsDisplayOfFullPlanes :
    ((fed 5515 0 (asked .initialized 0x4A5#12)).ready 0x4A5#12 ∧ (fed 5515 0 (asked .initialized 0x4A5#12)).xfersOk 5515 ∧
      (fed 5515 0 (asked .initialized 0x4A5#12)).busyFor 0) ∧
    ((full 2756 0xA5#8 (fed 5515 0 (asked .initialized 0x300#12))).ready 0x300#12 ∧
      (full 2756 0xA5#8 (fed 5515 0 (asked .initialized 0x300#12))).session = .initialized ∧
      2756 ≤ (full 2756 0xA5#8 (fed 5515 0 (asked .initialized 0x300#12))).len0.toNat ∧
      ∀ k < 2756, (full 2756 0xA5#8 (fed 5515 0 (asked .initialized 0x300#12))).bufByte .plane0 k = reqArg 0x4A5#12 ∧
        (full 2756 0xA5#8 (fed 5515 0 (asked .initialized 0x300#12))).bufByte .plane1 k = reqArg 0x4A5#12) := by
  refine ⟨⟨fed_ready _ _ _ _, fed_xfersOk _ _ _, fed_busyFor _ _ _⟩, ⟨rfl, quiet_of_nil rfl, [], rfl⟩, rfl,
    Nat.le_refl 2756, fun k hk => full_bufByte 2756 0xA5#8 _ k hk⟩

theorem witness_ReadbusyWaitsForRelease :
    (fed 0 2 (asked .initialized 0x500#12)).ready 0x500#12 ∧ reqOp 0x500#12 = 0x5#4 ∧
    (fed 0 2 (asked .initialized 0x500#12)).session = .initialized ∧
    (fed 0 2 (asked .initialized 0x500#12)).busyFor 2 := ⟨fed_ready _ _ _ _, rfl, rfl, fed_busyFor _ _ _⟩

theorem witness_SleepReleasesAndHoldsLow :
    (fed 3 1 (asked .initialized 0x600#12)).ready 0x600#12 ∧ reqOp 0x600#12 = 0x6#4 ∧
    (fed 3 1 (asked .initialized 0x600#12)).session = .initialized ∧ (fed 3 1 (asked .initialized 0x600#12)).xfersOk 3 ∧
    (fed 3 1 (asked .initialized 0x600#12)).busyFor 1 :=
  ⟨fed_ready _ _ _ _, rfl, rfl, fed_xfersOk _ _ _, fed_busyFor _ _ _⟩

/-- A block that is asked for a transport operation with one byte in DBUF, and whose transfer ends as given. -/
def sending (w : BitVec 12) (r : XferResult) : State :=
  { asked .initialized w with xferIn := [.answer r], dlen := 1#16, dbuf := [(0, 0x5A#8)] }

theorem witness_TransportOperationsSendOneFrame :
    (∀ w r, (sending w r).ready w ∧ (sending w r).session = .initialized ∧ (sending w r).answered 0 0 r ∧
      1 ≤ (sending w r).dlen.toNat ∧ (sending w r).dlen.toNat ≤ Config.dbufDepth) ∧
    reqOp 0x712#12 = 0x7#4 ∧ reqOp 0x8A5#12 = 0x8#4 ∧ reqOp 0x900#12 = 0x9#4 :=
  ⟨fun _ _ => ⟨⟨rfl, quiet_of_nil rfl, [], rfl⟩, rfl, answered_zero rfl, by simp [sending], Nat.le_add_left 1 _⟩, rfl, rfl,
    rfl⟩

theorem memOk_idle (st : Session) : (idle st).MemOk := by
  simp [State.MemOk, idle, State.reset, Memory.wf, Memory.below]

theorem witness_EncodeWritesTheEncodedPlane :
    (asked .uninitialized 0xA01#12).ready 0xA01#12 ∧ reqOp 0xA01#12 = 0xA#4 ∧ (asked .uninitialized 0xA01#12).MemOk :=
  ⟨⟨rfl, quiet_of_nil rfl, [], rfl⟩, rfl, memOk_congr (memOk_idle .uninitialized) rfl rfl rfl⟩

theorem witness_BusyWaitEndsOnlyWhenReleased :
    (fed 0 2 (running .sleep 1 0 0)).op ≠ .idle ∧ (fed 0 2 (running .sleep 1 0 0)).quiet ∧
    (fed 0 2 (running .sleep 1 0 0)).row? = some .waitBusy ∧ (fed 0 2 (running .sleep 1 0 0)).seq.sub = 0#2 ∧
    (fed 0 2 (running .sleep 1 0 0)).busyFor 2 ∧ ∀ k < 2, (fed 0 2 (running .sleep 1 0 0)).busyAt k = false :=
  ⟨by decide, quiet_of_nil rfl, rfl, rfl, fed_busyFor _ _ _, (fed_busyFor 0 2 _).1⟩

theorem witness_SessionChangesOnlyAtSetState :
    (∃ t, step { running .init 22 0 0 with session := .sleeping } = .next t ∧ t.session ≠ .sleeping) ∧
    (∃ t, step (running .sleep 8 0 0) = .next t ∧ t.session ≠ (running .sleep 8 0 0).session) ∧
    (∃ t, step { idle .sleeping with rstIn := [false] } = .next t ∧ t.session ≠ .sleeping) := by
  refine ⟨?_, ?_, ?_⟩
  · obtain ⟨t, h, hp⟩ := next_of_gives (o := step { running .init 22 0 0 with session := .sleeping })
      (p := fun t => decide (t.session ≠ .sleeping)) (by decide)
    exact ⟨t, h, by simpa using hp⟩
  · obtain ⟨t, h, hp⟩ := next_of_gives (o := step (running .sleep 8 0 0))
      (p := fun t => decide (t.session ≠ .initialized)) (by decide)
    exact ⟨t, h, of_decide_eq_true hp⟩
  · exact ⟨_, rfl, by decide⟩

theorem witness_HandlesAreKept :
    ∃ t, step (running .sleep 5 0 0) = .next t ∧ (running .sleep 5 0 0).inReset = false ∧
      (running .sleep 5 0 0).gpioOpen = true ∧ (running .sleep 5 0 0).spiOpen = true ∧ t.spiOpen = false := by
  obtain ⟨t, h, hp⟩ := next_of_gives (o := step (running .sleep 5 0 0)) (p := fun t => !t.spiOpen) (by decide)
  exact ⟨t, h, rfl, rfl, rfl, by simpa using hp⟩

theorem witness_RunningOperationKeepsOperands :
    (∃ t, step (running .encode 2 0 0) = .next t) ∧ (running .encode 2 0 0).inReset = false ∧
    (running .encode 2 0 0).op ≠ .idle ∧ (running .encode 2 0 0).dest = .plane0 ∧
    { running .encode 2 0 0 with arg := 0x01#8 }.dest = .plane1 ∧ (running .reset 0 0 0).op ≠ .encode := by
  obtain ⟨t, h, -⟩ := next_of_gives (o := step (running .encode 2 0 0)) (p := fun _ => true) (by decide)
  exact ⟨⟨t, h⟩, rfl, by decide, rfl, rfl, by decide⟩

theorem witness_TraceGrowsByOneEvent :
    (∃ t, step (running .reset 0 0 0) = .next t) ∧ (running .reset 0 0 0).inReset = false := by
  obtain ⟨t, h, -⟩ := next_of_gives (o := step (running .reset 0 0 0)) (p := fun _ => true) (by decide)
  exact ⟨⟨t, h⟩, rfl⟩

theorem witness_FlagsFollowTheEvents :
    (∃ t, step (running .readbusy 1 0 0) = .next t ∧ t.trace = [] ++ [.ret 5#4 0#2]) ∧
    (running .readbusy 1 0 0).inReset = false ∧
    (∃ t, step { running .readbusy 0 0 0 with busyIn := [true] } = .next t ∧ t.trace = [.busy true]) := by
  obtain ⟨t, h, hp⟩ := next_of_gives (o := step (running .readbusy 1 0 0))
    (p := fun t => t.trace == [.ret 5#4 0#2]) (by decide)
  obtain ⟨u, k, kp⟩ := next_of_gives (o := step { running .readbusy 0 0 0 with busyIn := [true] })
    (p := fun t => t.trace == [.busy true]) (by decide)
  exact ⟨⟨t, h, by simpa using hp⟩, rfl, u, k, by simpa using kp⟩

/-- REFRESH at its transfer, which succeeds. -/
def transferring : State := { running .display 4 2 0 with xferIn := [.answer .ok] }

theorem seqOk_transferring : transferring.SeqOk := fun _ => ⟨.cmd (.const 0x12#8), rfl, rfl⟩

theorem sessOk_transferring : transferring.SessOk where
  gpio := fun _ => rfl
  spi := fun _ _ => rfl
  initGpio := fun h => by cases h
  initSpi := fun h => by cases h
  initEnd := fun h => by cases h
  sleepEnd := fun h => by cases h
  panelOps := fun _ _ _ _ => rfl
  select := fun _ => ⟨by decide, ⟨.cmd (.const 0x12#8), rfl, rfl⟩, .inl rfl⟩
  deselect := fun _ h => by cases h

theorem witness_TransfersOnlyWithHandles :
    transferring.SeqOk ∧ transferring.SessOk ∧ transferring.inReset = false ∧
    ∃ t, step transferring = .next t ∧ t.trace = transferring.trace ++ [.xfer [0x12#8] .ok] := by
  obtain ⟨t, h, hp⟩ := next_of_gives (o := step transferring) (p := fun t => t.trace == [.xfer [0x12#8] .ok]) (by decide)
  exact ⟨seqOk_transferring, sessOk_transferring, rfl, t, h, eq_of_beq hp⟩

theorem witness_DcHeldWhileSelected :
    transferring.SeqOk ∧ transferring.SessOk ∧ transferring.inReset = false ∧ transferring.csL = false ∧
    ∃ t, step transferring = .next t := by
  obtain ⟨t, h, -⟩ := next_of_gives (o := step transferring) (p := fun _ => true) (by decide)
  exact ⟨seqOk_transferring, sessOk_transferring, rfl, rfl, t, h⟩

theorem witness_RegisterWordsBitByBit :
    (idle .sleeping).op = .idle ∧ (idle .sleeping).gpioOpen = true ∧ State.reset.gpioOpen = false ∧ 8#4 ≤ 8#4 ∧
    8#4 ≤ 15#4 := ⟨rfl, rfl, rfl, by decide, by decide⟩

theorem witness_RegisterWritesByNumber :
    ∀ n v, { idle .sleeping with host := [.writeReg n v] }.inReset = false ∧
      { idle .sleeping with host := [.writeReg n v] }.op = .idle ∧
      { idle .sleeping with host := [.writeReg n v] }.host = .writeReg n v :: [] := fun _ _ => ⟨rfl, rfl, rfl⟩

theorem witness_BufferWritesLandInPlace :
    (∀ i, { idle .sleeping with host := [.writeBuf .plane1 i 7#8] }.MemOk ∧
      { idle .sleeping with host := [.writeBuf .plane1 i 7#8] }.inReset = false ∧
      { idle .sleeping with host := [.writeBuf .plane1 i 7#8] }.op = .idle ∧
      { idle .sleeping with host := [.writeBuf .plane1 i 7#8] }.host = .writeBuf .plane1 i 7#8 :: []) ∧
    (2755#16 : Word16).toNat < Buf.plane1.depth ∧ Buf.plane1.depth ≤ (2756#16 : Word16).toNat :=
  ⟨fun _ => ⟨memOk_congr (memOk_idle .sleeping) rfl rfl rfl, rfl, rfl, rfl⟩, by decide, by decide⟩

/-- A raster with one pixel, the one in column 5 and row 100. -/
def onePixel : Memory := [(65536 * 100 + 5, 0x00#8)]

theorem witness_PresentedRasterIsRead :
    ({ idle .sleeping with host := [.present (.cells 0xFF#8 onePixel)] }.inReset = false ∧
      { idle .sleeping with host := [.present (.cells 0xFF#8 onePixel)] }.op = .idle ∧
      { idle .sleeping with host := [.present (.cells 0xFF#8 onePixel)] }.host =
        .present (.cells 0xFF#8 onePixel) :: []) ∧
    onePixel.wf = true ∧ (65536 * 100 + 5, 0x00#8) ∈ onePixel ∧ (∀ v, (65536 * 100 + 6, v) ∉ onePixel) ∧ 5 < 65536 :=
  ⟨⟨rfl, rfl, rfl⟩, rfl, by simp [onePixel], by simp [onePixel], by decide⟩

theorem witness_MemoriesStayCanonical :
    (idle .initialized).MemOk ∧ ∃ t, step (idle .initialized) = .next t := ⟨memOk_idle _, _, rfl⟩

theorem witness_PositionStaysInItsTable :
    transferring.SeqOk ∧ ∃ t, step transferring = .next t := by
  obtain ⟨t, h, -⟩ := next_of_gives (o := step transferring) (p := fun _ => true) (by decide)
  exact ⟨seqOk_transferring, t, h⟩

theorem witness_SessionInvariantIsKept :
    transferring.SeqOk ∧ transferring.SessOk ∧ ∃ t, step transferring = .next t := by
  obtain ⟨t, h, -⟩ := next_of_gives (o := step transferring) (p := fun _ => true) (by decide)
  exact ⟨seqOk_transferring, sessOk_transferring, t, h⟩

theorem witness_NoStepIsMissing : transferring.SeqOk ∧ (idle .sleeping).SeqOk :=
  ⟨seqOk_transferring, fun h => absurd rfl h⟩

theorem witness_EncodedBitIsClearedByItsPixels : 0 < 2756 ∧ 2755 < 2756 ∧ 0 < 8 ∧ 7 < 8 := by decide

theorem witness_NormalRasterIsRowMajor : 211 < 212 ∧ 103 < 104 := by decide

theorem witness_BlackIsZeroWhiteIsOnes :
    (∀ x y, x < 104 → y < 212 → ((Raster.cells 127#8 []).pixel x y).toNat < 128) ∧
    (∀ x y, x < (104#16 : Word16).toNat → y < (212#16 : Word16).toNat →
      128 ≤ ((Raster.cells 128#8 []).pixel x y).toNat) :=
  ⟨fun _ _ _ _ => Nat.lt_succ_self 127, fun _ _ _ _ => Nat.le_refl 128⟩

theorem witness_InitByteStream :
    (fed 13 2 (asked .uninitialized 0x2FF#12)).ready 0x2FF#12 ∧ reqOp 0x2FF#12 = 0x2#4 ∧
    (fed 13 2 (asked .uninitialized 0x2FF#12)).session ≠ .initialized ∧
    (fed 13 2 (asked .uninitialized 0x2FF#12)).xfersOk 13 ∧ (fed 13 2 (asked .uninitialized 0x2FF#12)).busyFor 2 :=
  ⟨fed_ready _ _ _ _, rfl, by decide, fed_xfersOk _ _ _, fed_busyFor _ _ _⟩

theorem witness_LeastTimesOfTheOperations :
    (∀ n m st w, (fed n m (asked st w)).ready w ∧ (fed n m (asked st w)).busyFor m ∧
      (fed n m (asked st w)).session = st ∧ (fed n m (asked st w)).xfersOk n ∧
      planeBound (fed n m (asked st w)).len0 = 0 ∧ planeBound (fed n m (asked st w)).len1 = 0) ∧
    reqOp 0x100#12 = 0x1#4 ∧ reqOp 0x200#12 = 0x2#4 ∧ reqOp 0x300#12 = 0x3#4 ∧ reqOp 0x400#12 = 0x4#4 ∧
    reqOp 0x500#12 = 0x5#4 ∧ reqOp 0x600#12 = 0x6#4 :=
  ⟨fun _ _ _ _ => ⟨fed_ready _ _ _ _, fed_busyFor _ _ _, rfl, fed_xfersOk _ _ _, rfl, rfl⟩, rfl, rfl, rfl, rfl, rfl, rfl⟩

end Sys2Proof.Tests
end

/-! What a step appends to the trace (00_scope R14, R18; log 28), read off `step_cases` for the step of the machine and off
`rowStep_did` for the step of a row. -/

namespace Sys2Proof.Machine

/-- The trace `l'` is `l` with at most one event appended. -/
inductive TraceNext (l l' : List Event) : Prop
  | silent (h : l' = l)
  | emits (e : Event) (h : l' = l ++ [e])

theorem TraceNext.exists_appended {l l' : List Event} (h : TraceNext l l') :
    ∃ es, l' = l ++ es ∧ es.length ≤ 1 := by
  cases h with
  | silent h => exact ⟨[], by simp [h], Nat.zero_le 1⟩
  | emits e h => exact ⟨[e], h, Nat.le_refl 1⟩

@[simp] theorem scanPixel_trace (s : State) : s.scanPixel.trace = s.trace := by
  rcases scanPixel_eq s with h | ⟨k, v, -, h⟩ <;> simp [h]

@[simp] theorem writeReg_trace (s : State) (n : BitVec 4) (v : Word16) : (s.writeReg n v).trace = s.trace := by
  unfold State.writeReg
  split <;> rfl

/-- The step of a row is silent where an answer is pending, where a loop ends, and in the phases SETSTATE, FILL, SCAN and
SETLEN (41_protocol R159, R163, 42_encoder R206); everywhere else it has one event. -/
theorem RowDid.traceNext {s t : State} {r : Row} (h : RowDid s r t) : TraceNext s.trace t.trace := by
  cases h with
  | pending | loopEnd | setState | fillByte | fillEnd | scanX | scanY | scanEnd | setLen => exact .silent (by simp)
  | pin | dc | cs | deselect | cmdEnd | dataEnd | byteEnd => exact .emits _ (pin_trace ..)
  | acqGpio | acqSpi | relSpi | delay | transfer | released | busy | poll | failed | finish => exact .emits _ rfl

/-- A request to an idle block is silent when it is accepted, and has the `Ret` of its exception when it is not. -/
theorem request_traceNext {w : BitVec 12} {s t : State} (hi : s.op = .idle) (h : exec (decodeRequest w) s = .next t) :
    TraceNext s.trace t.trace := by
  rcases exec_request_idle hi h with ⟨x, rfl⟩ | ⟨op, -, -, rfl⟩
  · exact .emits _ (raise_trace ..)
  · exact .silent (start_trace ..)

/-- No step but hardware reset takes an event back or appends a second one. -/
theorem step_traceNext {s t : State} (h : step s = .next t) (hr : s.inReset = false) : TraceNext s.trace t.trace := by
  rcases step_cases h with ⟨hr', -⟩ | ⟨-, -, -, rfl⟩ | ⟨w, rest, -, hop, -, he⟩ | ⟨n, v, rest, -, -, -, rfl⟩ |
    ⟨b, i, v, rest, -, -, -, -, rfl⟩ | ⟨r, rest, -, -, -, rfl⟩ | ⟨r, -, -, -, rfl⟩
  · simp [hr] at hr'
  · exact .silent (tick_trace s)
  · exact request_traceNext (s := s.tick.withHost rest) hop he
  · exact .silent (writeReg_trace ..)
  · exact .silent (setBuf_trace ..)
  · exact .silent (withRaster_trace ..)
  · exact (rowStep_did r s.tick).traceNext

/-- Settles O41: the cases of a step, and for a running block the cases of its row. -/
theorem traceGrowsByOneEvent : Obligations.TraceGrowsByOneEvent := by
  intro s t h hr
  exact (step_traceNext h hr).exists_appended

end Sys2Proof.Machine

/-! What a step does to a state, said once for an idle block and once for a running one; every invariant below is read off
these. -/

namespace Sys2Proof.Machine

/-- What a scan of one pixel does to a field that no write to a buffer changes. -/
theorem scanPixel_field {α : Type} (f : State → α) (s : State) (hf : ∀ b k v, f (s.setBuf b k v) = f s) :
    f s.scanPixel = f s := by
  rcases scanPixel_eq s with h | ⟨k, v, -, h⟩ <;> rw [h]
  exact hf _ _ _

@[simp] theorem scanPixel_op (s : State) : s.scanPixel.op = s.op := scanPixel_field State.op s (by simp)
@[simp] theorem scanPixel_rw (s : State) : s.scanPixel.rw = s.rw := scanPixel_field State.rw s (by simp)
@[simp] theorem scanPixel_err (s : State) : s.scanPixel.err = s.err := scanPixel_field State.err s (by simp)
@[simp] theorem scanPixel_done (s : State) : s.scanPixel.done = s.done := scanPixel_field State.done s (by simp)
@[simp] theorem scanPixel_lastBusy (s : State) : s.scanPixel.lastBusy = s.lastBusy :=
  scanPixel_field State.lastBusy s (by simp)
@[simp] theorem scanPixel_session (s : State) : s.scanPixel.session = s.session := scanPixel_field State.session s (by simp)
@[simp] theorem scanPixel_gpioOpen (s : State) : s.scanPixel.gpioOpen = s.gpioOpen :=
  scanPixel_field State.gpioOpen s (by simp)
@[simp] theorem scanPixel_spiOpen (s : State) : s.scanPixel.spiOpen = s.spiOpen := scanPixel_field State.spiOpen s (by simp)
@[simp] theorem scanPixel_csL (s : State) : s.scanPixel.csL = s.csL := scanPixel_field State.csL s (by simp)
@[simp] theorem scanPixel_arg (s : State) : s.scanPixel.arg = s.arg := scanPixel_field State.arg s (by simp)
@[simp] theorem scanPixel_len0 (s : State) : s.scanPixel.len0 = s.len0 := scanPixel_field State.len0 s (by simp)
@[simp] theorem scanPixel_len1 (s : State) : s.scanPixel.len1 = s.len1 := scanPixel_field State.len1 s (by simp)
@[simp] theorem scanPixel_dlen (s : State) : s.scanPixel.dlen = s.dlen := scanPixel_field State.dlen s (by simp)
@[simp] theorem scanPixel_rh (s : State) : s.scanPixel.rh = s.rh := scanPixel_field State.rh s (by simp)
@[simp] theorem scanPixel_host (s : State) : s.scanPixel.host = s.host := scanPixel_field State.host s (by simp)
@[simp] theorem scanPixel_raster (s : State) : s.scanPixel.raster = s.raster := scanPixel_field State.raster s (by simp)

/-- A register write sets operand registers only. -/
theorem exists_writeReg_eq (s : State) (n : BitVec 4) (v : Word16) :
    ∃ l0 l1 d w h, s.writeReg n v = { s with len0 := l0, len1 := l1, dlen := d, rw := w, rh := h } := by
  unfold State.writeReg
  split <;> exact ⟨_, _, _, _, _, rfl⟩

/-- The step of a running block is that of the row it stands at. -/
theorem step_running_did {s t : State} (h : step s = .next t) (hr : s.inReset = false) (hop : s.op ≠ .idle) :
    ∃ r, s.row? = some r ∧ RowDid s.tick r t := by
  rcases step_cases h with ⟨hr', -⟩ | ⟨-, hi, -⟩ | ⟨w, rest, -, hi, -⟩ | ⟨n, v, rest, -, hi, -⟩ |
    ⟨b, i, v, rest, -, hi, -⟩ | ⟨r, rest, -, hi, -⟩ | ⟨r, -, -, hrow, rfl⟩
  · simp [hr] at hr'
  iterate 5 exact absurd hi hop
  exact ⟨r, hrow, rowStep_did r s.tick⟩

/-- A host action of an idle block that is no request is what `hostAct` says, the action taken and the DONE pulse ended. -/
theorem step_hostAct {s : State} {a : HostAct} {rest : List HostAct} (hr : s.inReset = false) (hop : s.op = .idle)
    (hh : s.host = a :: rest) (ha : ∀ w, a ≠ .request w) : step s = (s.tick.withHost rest).hostAct a := by
  cases a with
  | request w => exact absurd rfl (ha w)
  | _ => simp [step, State.fetch, hr, hop, State.fetchHost, hh]

/-- The flags of a step go with the event it appends: a `Ret`, a `Busy`, another one or none (10_state R35). -/
inductive FlagsDid (s t : State) : Prop
  | silent (trace : t.trace = s.trace) (done : t.done = false) (err : t.err = s.err) (last : t.lastBusy = s.lastBusy)
  | ret (o : BitVec 4) (e : BitVec 2) (trace : t.trace = s.trace ++ [.ret o e]) (done : t.done = true) (err : t.err = e)
      (last : t.lastBusy = s.lastBusy)
  | busy (v : Level) (trace : t.trace = s.trace ++ [.busy v]) (done : t.done = false) (err : t.err = s.err)
      (last : t.lastBusy = v)
  | other (ev : Event) (hret : ∀ o e, .ret o e ≠ ev) (hbusy : ∀ v, ev ≠ .busy v) (trace : t.trace = s.trace ++ [ev])
      (done : t.done = false) (err : t.err = s.err) (last : t.lastBusy = s.lastBusy)

/-- What a step of an idle block does: the session, the handles and CS stay, and the block stays idle or stands at the
start of an operation its session state admits (41_protocol R153). -/
structure IdleDid (s t : State) : Prop where
  session : t.session = s.session
  gpio : t.gpioOpen = s.gpioOpen
  spi : t.spiOpen = s.spiOpen
  cs : t.csL = s.csL
  flags : FlagsDid s t
  position : t.op = .idle ∨ ∃ op u, valid op s.session = true ∧ t = State.start op u

/-- Every step of an idle block with rst_n at 1 is of this kind. -/
theorem step_idle_did {s t : State} (h : step s = .next t) (hr : s.inReset = false) (hop : s.op = .idle) :
    IdleDid s t := by
  rcases step_cases h with ⟨hr', -⟩ | ⟨-, -, -, rfl⟩ | ⟨w, rest, -, -, -, he⟩ | ⟨n, v, rest, -, -, -, rfl⟩ |
    ⟨b, i, v, rest, -, -, -, -, rfl⟩ | ⟨r, rest, -, -, -, rfl⟩ | ⟨r, -, hrun, -⟩
  · simp [hr] at hr'
  · exact ⟨rfl, rfl, rfl, rfl, .silent rfl rfl rfl rfl, .inl hop⟩
  · rcases exec_request_idle (s := s.tick.withHost rest) hop he with ⟨x, rfl⟩ | ⟨op, -, hv, rfl⟩
    · exact ⟨rfl, rfl, rfl, rfl, .ret _ _ rfl rfl rfl rfl, .inl rfl⟩
    · exact ⟨rfl, rfl, rfl, rfl, .silent rfl rfl rfl rfl, .inr ⟨op, _, hv, rfl⟩⟩
  · obtain ⟨_, _, _, _, _, hw⟩ := exists_writeReg_eq (s.tick.withHost rest) n v
    rw [hw]
    exact ⟨rfl, rfl, rfl, rfl, .silent rfl rfl rfl rfl, .inl hop⟩
  · exact ⟨by simp, by simp, by simp, by simp, .silent (by simp) (by simp) (by simp) (by simp), .inl (by simpa using hop)⟩
  · exact ⟨rfl, rfl, rfl, rfl, .silent rfl rfl rfl rfl, .inl hop⟩
  · exact absurd hop hrun

end Sys2Proof.Machine

/-! The position of the sequencer: every step keeps it at a row of its table with counters that fit (10_state R22, R31,
R32). -/

namespace Sys2Proof.Machine

theorem seqOk_of_idle {s : State} (h : s.op = .idle) : s.SeqOk := fun hn => absurd h hn

/-- Ending the DONE pulse moves no counter. -/
theorem seqOk_tick {s : State} (h : s.SeqOk) : s.tick.SeqOk := h

/-- A row but SCAN can start wherever SUB and IDX are cleared. -/
theorem Row.countersOk_of_cleared {r : Row} {s : State} (hr : r ≠ .scan) (hs : s.seq.sub = 0#2) (hi : s.seq.idx = 0#16) :
    r.countersOk s := by
  cases r <;> simp_all [Row.countersOk]

/-- Inside a frame IDX is below the count of a LOOPDATA row, so any SUB fits. -/
theorem Row.countersOk_in_frame {r : Row} {s t : State} (hr : r.sendsFrames = true) (hm : r.more s)
    (hc : r.countersOk s) (hi : t.seq.idx = s.seq.idx) (h0 : t.len0 = s.len0) (h1 : t.len1 = s.len1) :
    r.countersOk t := by
  cases r with
  | cmd c => exact hi.trans hc
  | data d => exact hi.trans hc
  | loopData l =>
    have hlt : s.seq.idx.toNat < l.count s := by
      by_cases hs : s.seq.sub = 0#2
      · exact hm hs
      · exact hc.2 hs
    have hl : l.count t = l.count s := by cases l <;> simp [LoopForm.count, h0, h1]
    simp only [Row.countersOk, hi, hl]
    exact ⟨hlt.le, fun _ => hlt⟩
  | _ => cases hr

/-- The sequencer stays at its row. -/
theorem seqOk_of_stay {s t : State} {r : Row} (hrow : s.row? = some r) (hop : t.op = s.op) (hph : t.seq.ph = s.seq.ph)
    (hc : r.countersOk t) : t.SeqOk :=
  fun _ => ⟨r, by rw [← hrow, State.row?, State.row?, hop, hph], hc⟩

/-- The sequencer goes on to the next row; `hscan` says that the counters fit where this is SCAN. -/
theorem seqOk_of_next {s t : State} {r : Row} (hrow : s.row? = some r) (hr : r ≠ .finish) (hop : t.op = s.op)
    (hph : t.seq.ph = s.seq.ph + 1#6) (hsub : t.seq.sub = 0#2) (hidx : t.seq.idx = 0#16)
    (hscan : r = .fill → Row.scan.countersOk t) : t.SeqOk := by
  intro _
  obtain ⟨r', hr', hfill⟩ := next_row hrow hr
  refine ⟨r', by rw [State.row?, hop, hph, ph_succ rfl (row_lt hrow), hr'], ?_⟩
  by_cases h : r' = .scan
  · exact h ▸ hscan (hfill h)
  · exact Row.countersOk_of_cleared h hsub hidx

/-- An accepted operation stands at the first row of its table, which is not SCAN. -/
theorem seqOk_start {s : State} {op : Op} : (s.start op).SeqOk := by
  have first : ∀ o ∈ allOps, o ≠ .idle → ∃ r ∈ (phaseTable o)[0]?, r ≠ .scan := by decide +kernel
  intro hop
  obtain ⟨r, hr, hn⟩ := first op (mem_allOps op) hop
  exact ⟨r, hr, Row.countersOk_of_cleared hn rfl rfl⟩

theorem packStride_lt (w : Word16) : packStride w < 256 :=
  Nat.lt_of_le_of_lt (Nat.min_le_left _ _) (by decide)

/-- A counter that does not wrap goes up by one. -/
theorem toNat_succ {w : Nat} {x : BitVec w} (h : x.toNat + 1 < 2 ^ w) : (x + 1#w).toNat = x.toNat + 1 := by
  rw [BitVec.toNat_add, BitVec.toNat_ofNat, Nat.add_mod_mod, Nat.mod_eq_of_lt h]

/-- The step of the row it stands at keeps the sequencer in its table. -/
theorem RowDid.seqOk {s t : State} {r : Row} (h : RowDid s r t) (hrow : s.row? = some r) (hc : r.countersOk s) :
    t.SeqOk := by
  cases h with
  | acqGpio | acqSpi | relSpi | pin | delay | setState | cmdEnd | dataEnd | loopEnd | released | scanEnd | setLen =>
    exact seqOk_of_next hrow (by simp) (by simp) (by simp) (by simp) (by simp) (by simp)
  | dc _ hr hm | cs _ hr hm | pending _ hr hm | transfer _ _ hr hm | deselect _ hr hm =>
    exact seqOk_of_stay hrow (by simp) (by simp) (Row.countersOk_in_frame hr hm hc (by simp) (by simp) (by simp))
  | failed | finish => exact seqOk_of_idle (by simp)
  | byteEnd l hs hx =>
    have hlt : s.seq.idx.toNat < l.count s := hc.2 (by simp [hs])
    have hle := count_le l s
    refine seqOk_of_stay hrow (by simp) (by simp) ⟨?_, fun h => absurd rfl h⟩
    have hl : l.count ((s.pin .cs true).loopNext) = l.count s := by cases l <;> simp [LoopForm.count]
    rw [hl, loopNext_seq, pin_seq, toNat_succ (by omega)]
    exact hlt
  | busy => exact seqOk_of_stay hrow (by simp) (by simp) ⟨by simpa using hc.1, .inr (by simp)⟩
  | poll => exact seqOk_of_stay hrow (by simp) (by simp) ⟨by simpa using hc.1, .inl (by simp)⟩
  | fillByte hi =>
    have hb : s.seq.idx.toNat < 2756 := hi
    refine seqOk_of_stay hrow (by simp) (by simp) ⟨by simpa using hc.1, ?_, fun _ => ?_⟩
    · show (s.seq.idx + 1#16).toNat ≤ 2756
      rw [toNat_succ (by omega)]
      exact hb
    · simpa using packStride_lt s.rw
  | fillEnd hi =>
    have hb : 2756 ≤ s.seq.idx.toNat := hi
    have hne : s.seq.idx ≠ 0#16 := by rintro h; simp [h] at hb
    exact seqOk_of_next hrow (by simp) rfl rfl rfl rfl
      fun _ => ⟨rfl, rfl, by simp [Config.width], by simp [Config.height], hc.2.2 hne⟩
  | scanX hx =>
    obtain ⟨hsub, hidx, hy, -, hst⟩ := hc
    refine seqOk_of_stay hrow (by simp) (by simp) ⟨hsub, hidx, hy, ?_, by simpa using hst⟩
    have hx' : s.seq.x.toNat + 1 < 104 := hx
    show (s.seq.x + 1#7).toNat < 104
    rw [toNat_succ (by omega)]
    exact hx'
  | scanY hx hy =>
    obtain ⟨hsub, hidx, -, -, hst⟩ := hc
    refine seqOk_of_stay hrow (by simp) (by simp) ⟨hsub, hidx, ?_, by simp [Config.height], by simpa using hst⟩
    have hy' : s.seq.y.toNat + 1 < 212 := hy
    show (s.seq.y + 1#8).toNat < 212
    rw [toNat_succ (by omega)]
    exact hy'

/-- The step of a running block in its table: of its row, with counters that fit the row. -/
theorem step_running_did_seqOk {s t : State} (hs : s.SeqOk) (h : step s = .next t) (hr : s.inReset = false)
    (hop : s.op ≠ .idle) : ∃ r, s.tick.row? = some r ∧ r.countersOk s.tick ∧ RowDid s.tick r t := by
  obtain ⟨r, hrow, hdid⟩ := step_running_did h hr hop
  obtain ⟨r', hrow', hc⟩ := seqOk_tick hs hop
  obtain rfl : r = r' := Option.some.inj (hrow.symm.trans hrow')
  exact ⟨r, hrow, hc, hdid⟩

/-- Settles O49: hardware reset and the idle block by where they leave OP, a running block by the cases of its row. -/
theorem positionStaysInItsTable : Obligations.PositionStaysInItsTable := by
  intro s t hs h
  cases hr : s.inReset with
  | true =>
    rw [step_inReset hr] at h
    cases h
    exact seqOk_of_idle rfl
  | false =>
    by_cases hop : s.op = .idle
    · rcases (step_idle_did h hr hop).position with hi | ⟨op, u, -, rfl⟩
      · exact seqOk_of_idle hi
      · exact seqOk_start
    · obtain ⟨r, hrow, hc, hdid⟩ := step_running_did_seqOk hs h hr hop
      exact hdid.seqOk hrow hc

end Sys2Proof.Machine

/-! The three flags follow the event of the step (10_state R35; log 9). -/

namespace Sys2Proof.Machine

/-- The flags after the step of a row, which starts with the DONE pulse ended. -/
theorem RowDid.flagsDid {s t : State} {r : Row} (h : RowDid s r t) (hd : s.done = false) : FlagsDid s t := by
  cases h with
  | pending | loopEnd | setState | fillByte | fillEnd | scanX | scanY | scanEnd | setLen =>
    exact .silent (by simp) (by simpa using hd) (by simp) (by simp)
  | failed | finish => exact .ret _ _ rfl rfl rfl rfl
  | released | busy => exact .busy _ rfl hd rfl rfl
  | pin | dc | cs | deselect | cmdEnd | dataEnd | byteEnd =>
    exact .other (.pin _ _) (by simp) (by simp) (pin_trace ..) (by simpa using hd) (by simp) (by simp)
  | acqGpio | acqSpi | relSpi | delay | transfer | poll => exact .other _ (by simp) (by simp) rfl hd rfl rfl

/-- Ending the DONE pulse first changes nothing a step's flags are compared with. -/
theorem FlagsDid.of_tick {s t : State} (h : FlagsDid s.tick t) : FlagsDid s t := by
  cases h with
  | silent trace done err last => exact .silent trace done err last
  | ret o e trace done err last => exact .ret o e trace done err last
  | busy v trace done err last => exact .busy v trace done err last
  | other ev hret hbusy trace done err last => exact .other ev hret hbusy trace done err last

/-- Every step with rst_n at 1 sets the flags by its event. -/
theorem step_flagsDid {s t : State} (h : step s = .next t) (hr : s.inReset = false) : FlagsDid s t := by
  by_cases hop : s.op = .idle
  · exact (step_idle_did h hr hop).flags
  · obtain ⟨r, -, hdid⟩ := step_running_did h hr hop
    exact (hdid.flagsDid rfl).of_tick

/-- Settles O42: the one event of the step decides the flags. -/
theorem flagsFollowTheEvents : Obligations.FlagsFollowTheEvents := by
  intro s t h hr
  cases step_flagsDid h hr with
  | silent trace done err last => simp [trace, done, err, last]
  | ret o e trace done err last => simp +contextual [trace, List.singleton_eq_append_iff, done, err, last]
  | busy v trace done err last => simp [trace, List.singleton_eq_append_iff, done, err, last]
  | other ev hret hbusy trace done err last => simp [trace, List.singleton_eq_append_iff, done, err, last, hret, hbusy]

end Sys2Proof.Machine

/-! The session state and the two handles along the rows (10_state R42, 60_exceptions R241, R242). -/

namespace Sys2Proof.Machine

/-- The session state after the step of a row. -/
def Row.sessionAfter (v : Session) : Row → Session
  | .setState st => st
  | _ => v

/-- GPIO_OPEN after the step of a row. -/
def Row.gpioAfter (v : Bool) : Row → Bool
  | .acq .gpio => true
  | _ => v

/-- SPI_OPEN after the step of a row. -/
def Row.spiAfter (v : Bool) : Row → Bool
  | .acq .spi => true
  | .relSpi => false
  | _ => v

theorem Row.gpioAfter_true (r : Row) : r.gpioAfter true = true := by
  unfold Row.gpioAfter
  split <;> rfl

theorem Row.eq_relSpi_of_spiAfter {r : Row} (h : r.spiAfter true = false) : r = .relSpi := by
  unfold Row.spiAfter at h
  split at h
  · cases h
  · rfl
  · cases h

/-- A row that touches neither the session state nor a handle. -/
def Row.keepsSession (r : Row) : Prop :=
  (∀ v, r.sessionAfter v = v) ∧ (∀ v, r.gpioAfter v = v) ∧ ∀ v, r.spiAfter v = v

theorem Row.keepsSession_of_sendsFrames {r : Row} (h : r.sendsFrames = true) : r.keepsSession := by
  cases r with
  | cmd | data | loopData => exact ⟨fun _ => rfl, fun _ => rfl, fun _ => rfl⟩
  | _ => cases h

theorem RowDid.session {s t : State} {r : Row} (h : RowDid s r t) : t.session = r.sessionAfter s.session := by
  cases h with
  | dc _ hr | cs _ hr | pending _ hr | transfer _ _ hr | deselect _ hr | failed _ hr =>
    simp [(Row.keepsSession_of_sendsFrames hr).1]
  | _ => simp [Row.sessionAfter]

theorem RowDid.gpioOpen {s t : State} {r : Row} (h : RowDid s r t) : t.gpioOpen = r.gpioAfter s.gpioOpen := by
  cases h with
  | dc _ hr | cs _ hr | pending _ hr | transfer _ _ hr | deselect _ hr | failed _ hr =>
    simp [(Row.keepsSession_of_sendsFrames hr).2.1]
  | _ => simp [Row.gpioAfter]

theorem RowDid.spiOpen {s t : State} {r : Row} (h : RowDid s r t) : t.spiOpen = r.spiAfter s.spiOpen := by
  cases h with
  | dc _ hr | cs _ hr | pending _ hr | transfer _ _ hr | deselect _ hr | failed _ hr =>
    simp [(Row.keepsSession_of_sendsFrames hr).2.2]
  | _ => simp [Row.spiAfter]

/-- Settles O39: only row 5 of SLEEP is a row after which a handle that was held is not. -/
theorem handlesAreKept : Obligations.HandlesAreKept := by
  intro s t h hr
  by_cases hop : s.op = .idle
  · have hd := step_idle_did h hr hop
    exact ⟨fun hg => hd.gpio.trans hg, fun hs ht => by simp [hd.spi, hs] at ht⟩
  · obtain ⟨r, hrow, hd⟩ := step_running_did h hr hop
    refine ⟨fun hg => ?_, fun hs ht => ?_⟩
    · rw [hd.gpioOpen, tick_gpioOpen, hg, Row.gpioAfter_true]
    · rw [hd.spiOpen, tick_spiOpen, hs] at ht
      obtain ⟨hsleep, hph⟩ := (handle_rows hrow).2.2.mp (Row.eq_relSpi_of_spiAfter ht)
      exact ⟨hsleep, BitVec.eq_of_toNat_eq hph⟩

theorem gpioAfter_at {s : State} {r : Row} (hrow : s.row? = some r) (v : Bool) :
    r.gpioAfter v = if s.op = .init ∧ s.seq.ph.toNat = 0 then true else v := by
  simp only [← (handle_rows hrow).1]
  unfold Row.gpioAfter
  split <;> simp_all

theorem spiAfter_at {s : State} {r : Row} (hrow : s.row? = some r) (v : Bool) :
    r.spiAfter v = if s.op = .init ∧ s.seq.ph.toNat = 1 then true
      else if s.op = .sleep ∧ s.seq.ph.toNat = 5 then false else v := by
  simp only [← (handle_rows hrow).2.1, ← (handle_rows hrow).2.2]
  unfold Row.spiAfter
  split <;> simp_all

theorem sessionAfter_at {s : State} {r : Row} (hrow : s.row? = some r) (v : Session) :
    r.sessionAfter v = if s.op = .init ∧ s.seq.ph.toNat = 22 then .initialized
      else if s.op = .sleep ∧ s.seq.ph.toNat = 8 then .sleeping else v := by
  have hun := (session_rows hrow).2.2
  simp only [← (session_rows hrow).1, ← (session_rows hrow).2.1]
  unfold Row.sessionAfter
  split
  · rename_i st
    cases st <;> simp_all
  · simp_all

/-- Where the step of a row leaves the sequencer: at the row, at the next one or idle. -/
inductive Moved (s : State) (r : Row) (t : State) : Prop
  | stays (hr : r.keepsSession) (op : t.op = s.op) (ph : t.seq.ph = s.seq.ph)
  | next (hr : r ≠ .finish) (op : t.op = s.op) (ph : t.seq.ph = s.seq.ph + 1#6)
  | ends (hr : r = .finish ∨ r.sendsFrames = true) (op : t.op = .idle)

theorem RowDid.moved {s t : State} {r : Row} (h : RowDid s r t) : Moved s r t := by
  cases h with
  | acqGpio | acqSpi | relSpi | pin | delay | setState | cmdEnd | dataEnd | loopEnd | released | fillEnd | scanEnd
  | setLen =>
    exact .next (by simp) (by simp) (by simp)
  | dc _ hr | cs _ hr | pending _ hr | transfer _ _ hr | deselect _ hr =>
    exact .stays (Row.keepsSession_of_sendsFrames hr) (by simp) (by simp)
  | byteEnd | busy | poll | fillByte | scanX | scanY =>
    exact .stays ⟨fun _ => rfl, fun _ => rfl, fun _ => rfl⟩ (by simp) (by simp)
  | failed _ hr => exact .ends (.inr hr) rfl
  | finish => exact .ends (.inl rfl) rfl

/-- The clauses of `SessOk` on the session and the handles. -/
structure State.HandlesOk (s : State) : Prop where
  gpio : s.session = .initialized → s.gpioOpen = true
  spi : s.session = .initialized → ¬ s.sleepReleased → s.spiOpen = true
  initGpio : s.op = .init → 1 ≤ s.seq.ph.toNat → s.gpioOpen = true
  initSpi : s.op = .init → 2 ≤ s.seq.ph.toNat → s.spiOpen = true
  initEnd : s.op = .init → (s.session = .initialized ↔ s.seq.ph.toNat = 23)
  sleepEnd : s.op = .sleep → s.seq.ph.toNat = 9 → s.session = .sleeping
  panelOps : s.op ≠ .idle → s.op ≠ .init → s.op ≠ .encode → ¬ (s.op = .sleep ∧ s.seq.ph.toNat = 9) →
    s.session = .initialized

theorem handlesOk_idle_iff {s : State} (hop : s.op = .idle) :
    s.HandlesOk ↔ (s.session = .initialized → s.gpioOpen = true ∧ s.spiOpen = true) := by
  have hrel : ¬ s.sleepReleased := fun h => by simp [State.sleepReleased, hop] at h
  constructor
  · exact fun h hi => ⟨h.gpio hi, h.spi hi hrel⟩
  · intro h
    exact ⟨fun hi => (h hi).1, fun hi _ => (h hi).2, by simp [hop], by simp [hop], by simp [hop], by simp [hop],
      by simp [hop]⟩

/-- The handles' clauses read OP, PH, the session state and the handles only. -/
theorem State.HandlesOk.congr {s t : State} (h : s.HandlesOk) (hop : t.op = s.op) (hph : t.seq.ph = s.seq.ph)
    (hst : t.session = s.session) (hg : t.gpioOpen = s.gpioOpen) (hs : t.spiOpen = s.spiOpen) : t.HandlesOk := by
  obtain ⟨gpio, spi, initGpio, initSpi, initEnd, sleepEnd, panelOps⟩ := h
  constructor <;> simp only [State.sleepReleased, hop, hph, hst, hg, hs] <;> assumption

/-- The next row of INIT or SLEEP finds what the row before it did to the session and the handles. -/
theorem State.HandlesOk.next {s t : State} {r : Row} (h : s.HandlesOk) (hrow : s.row? = some r) (hr : r ≠ .finish)
    (hop : t.op = s.op) (hph : t.seq.ph = s.seq.ph + 1#6) (hst : t.session = r.sessionAfter s.session)
    (hg : t.gpioOpen = r.gpioAfter s.gpioOpen) (hs : t.spiOpen = r.spiAfter s.spiOpen) : t.HandlesOk := by
  have hp : t.seq.ph.toNat = s.seq.ph.toNat + 1 := by rw [hph]; exact ph_succ rfl (row_lt hrow)
  obtain ⟨-, hinit, hsleep⟩ := other_rows hrow
  rw [gpioAfter_at hrow] at hg
  rw [spiAfter_at hrow] at hs
  rw [sessionAfter_at hrow] at hst
  constructor <;> simp only [State.sleepReleased, hop, hp, hst, hg, hs]
  case gpio =>
    by_cases h22 : s.op = .init ∧ s.seq.ph.toNat = 22
    · simp [h.initGpio h22.1 (by omega)]
    · grind [h.gpio]
  case spi =>
    by_cases h22 : s.op = .init ∧ s.seq.ph.toNat = 22
    · simp [h22, h.initSpi h22.1 (by omega)]
    · have hkeep := h.spi
      rw [State.sleepReleased] at hkeep
      grind
  case initGpio =>
    intro hi _
    by_cases h0 : s.seq.ph.toNat = 0
    · simp [hi, h0]
    · simp [h.initGpio hi (by omega)]
  case initSpi =>
    intro hi _
    by_cases h1 : s.seq.ph.toNat = 1
    · simp [hi, h1]
    · simp [hi, h.initSpi hi (by omega)]
  case initEnd =>
    intro hi
    by_cases h22 : s.seq.ph.toNat = 22
    · simp [hi, h22]
    · have h23 : s.seq.ph.toNat ≠ 23 := fun h23 => hr ((hinit hi).mpr h23)
      simp [hi, h22, h.initEnd hi, h23]
  case sleepEnd =>
    intro hi h9
    have h8 : s.seq.ph.toNat = 8 := by omega
    simp [hi, h8]
  case panelOps =>
    intro hidle hninit hencode h8
    have h9 : ¬ (s.op = .sleep ∧ s.seq.ph.toNat = 9) := fun h9 => hr ((hsleep h9.1).mpr h9.2)
    have h8' : ¬ (s.op = .sleep ∧ s.seq.ph.toNat = 8) := fun h => h8 ⟨h.1, by omega⟩
    simp [hninit, h8', h.panelOps hidle hninit hencode h9]

/-- The step of a row keeps the handles' clauses. -/
theorem RowDid.handlesOk {s t : State} {r : Row} (h : RowDid s r t) (hrow : s.row? = some r) (hs : s.HandlesOk) :
    t.HandlesOk := by
  have hst := h.session
  have hg := h.gpioOpen
  have hsp := h.spiOpen
  cases h.moved with
  | stays hr op ph =>
    obtain ⟨kst, kg, ksp⟩ := hr
    exact hs.congr op ph (hst.trans (kst _)) (hg.trans (kg _)) (hsp.trans (ksp _))
  | next hr op ph => exact hs.next hrow hr op ph hst hg hsp
  | ends hr op =>
    obtain ⟨kst, kg, ksp⟩ : r.keepsSession := by
      rcases hr with rfl | hr
      · exact ⟨fun _ => rfl, fun _ => rfl, fun _ => rfl⟩
      · exact Row.keepsSession_of_sendsFrames hr
    rw [handlesOk_idle_iff op, hst, hg, hsp, kst, kg, ksp]
    refine fun hi => ⟨hs.gpio hi, hs.spi hi ?_⟩
    rintro ⟨hsleep, h6⟩
    rcases hr with rfl | hr
    · have h9 := ((other_rows hrow).2.2 hsleep).mp rfl
      simp [hs.sleepEnd hsleep h9] at hi
    · have h3 := ((sending_rows hrow).1 hr).2.2 hsleep
      omega

end Sys2Proof.Machine

/-! CS along the frames, and with the handles the whole session invariant (40_transport R131, R136, 41_protocol R171). -/

namespace Sys2Proof.Machine

/-- The clauses of `SessOk` on CS. -/
structure State.SelectOk (s : State) : Prop where
  select : s.csL = false → s.selected
  deselect : s.selected → s.csL = true → s.seq.sub = 3#2 ∧ s.seq.xfail = true

theorem not_selected_of_idle {s : State} (hop : s.op = .idle) : ¬ s.selected := fun h => h.1 hop

theorem not_selected_of_sub {s : State} (h : s.seq.sub = 0#2 ∨ s.seq.sub = 1#2) : ¬ s.selected := by
  rintro ⟨-, -, h23⟩
  rcases h with h | h <;> simp [h] at h23

/-- Outside a frame that has asserted CS, CS is 1. -/
theorem selectOk_iff_of_not_selected {s : State} (hs : ¬ s.selected) : s.SelectOk ↔ s.csL = true := by
  constructor
  · intro h
    by_contra hc
    exact hs (h.select (by simpa using hc))
  · exact fun hc => ⟨fun h => by simp [hc] at h, fun h => absurd h hs⟩

/-- A step outside frames that leaves CS. -/
theorem State.SelectOk.of_outside {s t : State} (h : s.SelectOk) (hs : s.seq.sub = 0#2 ∨ s.seq.sub = 1#2)
    (hc : t.csL = s.csL) (ht : ¬ t.selected) : t.SelectOk := by
  rw [selectOk_iff_of_not_selected ht, hc]
  exact (selectOk_iff_of_not_selected (not_selected_of_sub hs)).mp h

/-- A step to inside a frame: the row sends frames, and CS is 0. -/
theorem selectOk_of_in_frame {s t : State} {r : Row} (hrow : s.row? = some r) (hr : r.sendsFrames = true)
    (hop : t.op = s.op) (hph : t.seq.ph = s.seq.ph) (hsub : t.seq.sub = 2#2 ∨ t.seq.sub = 3#2) (hc : t.csL = false) :
    t.SelectOk where
  select _ := ⟨hop ▸ row_op hrow, ⟨r, by rw [← hrow, State.row?, State.row?, hop, hph], hr⟩, hsub⟩
  deselect _ h := by simp [hc] at h

/-- A frame that waits for its transfer has CS at 0. -/
theorem State.SelectOk.csL_of_sub_two {s : State} {r : Row} (h : s.SelectOk) (hrow : s.row? = some r)
    (hr : r.sendsFrames = true) (hs : s.seq.sub = 2#2) : s.csL = false := by
  by_contra hc
  have h3 := (h.deselect ⟨row_op hrow, ⟨r, hrow, hr⟩, .inl hs⟩ (by simpa using hc)).1
  simp [hs] at h3

/-- The step of a row keeps CS with the frames. -/
theorem RowDid.selectOk {s t : State} {r : Row} (h : RowDid s r t) (hrow : s.row? = some r) (hc : r.countersOk s)
    (hs : s.SelectOk) : t.SelectOk := by
  cases h with
  | acqGpio | acqSpi | relSpi | delay | setState | setLen | fillByte | fillEnd | scanX | scanY | scanEnd =>
    exact hs.of_outside (.inl hc.1) (by simp) (not_selected_of_sub (.inl (by simp [hc.1])))
  | pin p v =>
    have hp : p ≠ .cs := fun hp => (sending_rows hrow).2 v (by rw [hp])
    exact hs.of_outside (.inl hc.1) (by simp [hp]) (not_selected_of_sub (.inl (by simp)))
  | finish => exact hs.of_outside (.inl hc.1) (by simp) (not_selected_of_idle rfl)
  | loopEnd l hsub | released hsub =>
    exact hs.of_outside (.inl hsub) (by simp) (not_selected_of_sub (.inl (by simp)))
  | busy hsub => exact hs.of_outside (.inl hsub) (by simp) (not_selected_of_sub (.inr (by simp)))
  | poll => exact hs.of_outside hc.2 (by simp) (not_selected_of_sub (.inl (by simp)))
  | dc _ _ _ hsub => exact hs.of_outside (.inl hsub) (by simp) (not_selected_of_sub (.inr (by simp)))
  | cs _ hr => exact selectOk_of_in_frame hrow hr (by simp) (by simp) (.inl (by simp)) (by simp)
  | pending _ hr _ hsub =>
    exact selectOk_of_in_frame hrow hr rfl rfl (.inl hsub) (hs.csL_of_sub_two hrow hr hsub)
  | transfer _ _ hr _ hsub =>
    exact selectOk_of_in_frame hrow hr rfl rfl (.inr rfl) (hs.csL_of_sub_two hrow hr hsub)
  | deselect _ _ _ hsub hx => exact ⟨by simp, fun _ _ => by simp [hsub, hx]⟩
  | failed _ _ _ _ _ hcs => exact (selectOk_iff_of_not_selected (not_selected_of_idle rfl)).mpr hcs
  | cmdEnd | dataEnd | byteEnd =>
    exact (selectOk_iff_of_not_selected (not_selected_of_sub (.inl (by simp)))).mpr (by simp)

theorem sessOk_iff {s : State} : s.SessOk ↔ s.HandlesOk ∧ s.SelectOk :=
  ⟨fun h => ⟨⟨h.gpio, h.spi, h.initGpio, h.initSpi, h.initEnd, h.sleepEnd, h.panelOps⟩, h.select, h.deselect⟩,
    fun ⟨h, k⟩ => ⟨h.gpio, h.spi, h.initGpio, h.initSpi, h.initEnd, h.sleepEnd, h.panelOps, k.select, k.deselect⟩⟩

/-- In an idle block the invariant says that Initialized holds both handles and that CS is 1. -/
theorem sessOk_idle_iff {s : State} (hop : s.op = .idle) :
    s.SessOk ↔ (s.session = .initialized → s.gpioOpen = true ∧ s.spiOpen = true) ∧ s.csL = true := by
  rw [sessOk_iff, handlesOk_idle_iff hop, selectOk_iff_of_not_selected (not_selected_of_idle hop)]

/-- Ending the DONE pulse changes nothing the invariant reads. -/
theorem sessOk_tick {s : State} (h : s.SessOk) : s.tick.SessOk where
  gpio := h.gpio
  spi := h.spi
  initGpio := h.initGpio
  initSpi := h.initSpi
  initEnd := h.initEnd
  sleepEnd := h.sleepEnd
  panelOps := h.panelOps
  select := h.select
  deselect := h.deselect

/-- The model's check of the session state is the table of 41_protocol R171 read by rows. -/
theorem valid_iff_admits (op : Op) (st : Session) : valid op st = true ↔ admits op st := by
  cases op <;> cases st <;> simp [valid, admits]

/-- The session state that admits an operation holds what its first row needs (41_protocol R171). -/
theorem sessOk_start {u : State} {op : Op} (hv : valid op u.session = true)
    (hh : u.session = .initialized → u.gpioOpen = true ∧ u.spiOpen = true) (hc : u.csL = true) :
    (u.start op).SessOk := by
  have ha : admits op u.session := (valid_iff_admits _ _).mp hv
  refine sessOk_iff.mpr ⟨?_, (selectOk_iff_of_not_selected (not_selected_of_sub (.inl rfl))).mpr hc⟩
  exact
    { gpio := fun hi => (hh hi).1
      spi := fun hi _ => (hh hi).2
      initGpio := fun _ h => by simp at h
      initSpi := fun _ h => by simp at h
      initEnd := by
        rintro rfl
        have hst : u.session ≠ .initialized := by simpa [admits] using ha
        simp [hst]
      sleepEnd := fun _ h => by simp at h
      panelOps := by
        intro _ hinit hencode _
        rcases ha with h | ⟨h, -⟩ | ⟨-, -, h⟩
        · exact absurd h hencode
        · exact absurd h hinit
        · exact h }

/-- Every step of an idle block keeps the invariant. -/
theorem IdleDid.sessOk {s t : State} (h : IdleDid s t) (hop : s.op = .idle) (hs : s.SessOk) : t.SessOk := by
  rw [sessOk_idle_iff hop, ← h.session, ← h.gpio, ← h.spi, ← h.cs] at hs
  obtain ⟨hh, hc⟩ := hs
  rcases h.position with hi | ⟨op, u, hv, rfl⟩
  · exact (sessOk_idle_iff hi).mpr ⟨hh, hc⟩
  · exact sessOk_start (by simpa [← h.session] using hv) hh hc

theorem sessOk_hardReset (s : State) : s.hardReset.SessOk :=
  (sessOk_idle_iff rfl).mpr ⟨nofun, rfl⟩

/-- Settles O50: the handles follow the rows of INIT and SLEEP, CS follows the frames. -/
theorem sessionInvariantIsKept : Obligations.SessionInvariantIsKept := by
  intro s t hseq hs h
  cases hr : s.inReset with
  | true =>
    rw [step_inReset hr] at h
    cases h
    exact sessOk_hardReset s
  | false =>
    by_cases hop : s.op = .idle
    · exact (step_idle_did h hr hop).sessOk hop hs
    · obtain ⟨r, hrow, hc, hdid⟩ := step_running_did_seqOk hseq h hr hop
      obtain ⟨hhandles, hselect⟩ := sessOk_iff.mp (sessOk_tick hs)
      exact sessOk_iff.mpr ⟨hdid.handlesOk hrow hhandles, hdid.selectOk hrow hc hselect⟩

/-- Settles O51: no memory holds a byte, and the block is idle with no handle held. -/
theorem resetMeetsTheInvariants : Obligations.ResetMeetsTheInvariants := by
  have hmem : ∀ n, Memory.below n [] := fun _ _ hc => by cases hc
  exact ⟨⟨⟨rfl, rfl, rfl⟩, hmem _, hmem _, hmem _⟩, seqOk_of_idle rfl,
    (sessOk_idle_iff rfl).mpr ⟨nofun, rfl⟩⟩

end Sys2Proof.Machine

/-! What a running operation leaves of the operands and the buffers (10_state R21, R57, 42_encoder R206). -/

namespace Sys2Proof.Machine

/-- What ENCODE's rows leave of the buffers and their lengths: all but the destination's (42_encoder R206). -/
structure OnlyDest (s t : State) : Prop where
  dlen : t.dlen = s.dlen
  dbuf : t.dbuf = s.dbuf
  black : s.dest = .plane1 → t.plane0 = s.plane0 ∧ t.len0 = s.len0
  red : s.dest = .plane0 → t.plane1 = s.plane1 ∧ t.len1 = s.len1

theorem setBuf_onlyDest (s : State) (k : Nat) (v : Byte) : OnlyDest s (s.setBuf s.dest k v) := by
  rcases dest_cases s with h | h <;> rw [h] <;> constructor <;> simp [State.setBuf, h]

theorem setLen_onlyDest (s : State) (v : Word16) : OnlyDest s (s.setLen s.dest v) := by
  rcases dest_cases s with h | h <;> rw [h] <;> constructor <;> simp [State.setLen, h]

theorem scanPixel_onlyDest (s : State) : OnlyDest s s.scanPixel := by
  rcases scanPixel_eq s with h | ⟨k, v, -, h⟩ <;> rw [h]
  · exact ⟨rfl, rfl, fun _ => ⟨rfl, rfl⟩, fun _ => ⟨rfl, rfl⟩⟩
  · exact setBuf_onlyDest s k v

/-- A move of the counters afterwards leaves the buffers as they are. -/
theorem OnlyDest.withSeq {s t : State} (h : OnlyDest s t) (q : SeqRegs) : OnlyDest s (t.withSeq q) :=
  ⟨h.dlen, h.dbuf, h.black, h.red⟩

/-- No row writes DBUF or DLEN, and none but the destination of an ENCODE and its length. -/
theorem RowDid.onlyDest {s t : State} {r : Row} (h : RowDid s r t) : OnlyDest s t := by
  cases h with
  | fillByte => exact (setBuf_onlyDest s _ _).withSeq _
  | scanX | scanY | scanEnd => exact (scanPixel_onlyDest s).withSeq _
  | setLen => exact (setLen_onlyDest s _).withSeq _
  | _ => exact ⟨by simp, by simp, by simp, by simp⟩

/-- The rows that write are ENCODE's. -/
theorem RowDid.planes_kept {s t : State} {r : Row} (h : RowDid s r t) (hrow : s.row? = some r) (hop : s.op ≠ .encode) :
    t.plane0 = s.plane0 ∧ t.len0 = s.len0 ∧ t.plane1 = s.plane1 ∧ t.len1 = s.len1 := by
  have hr : ¬ (r = .fill ∨ r = .scan ∨ r = .setLen) := fun hr => hop ((other_rows hrow).1 hr)
  cases h with
  | fillByte | fillEnd | scanX | scanY | scanEnd | setLen => simp at hr
  | _ => simp

/-- No row takes a host action or changes the raster, ARG, RW or RH. -/
theorem RowDid.operands_kept {s t : State} {r : Row} (h : RowDid s r t) :
    t.host = s.host ∧ t.raster = s.raster ∧ t.arg = s.arg ∧ t.rw = s.rw ∧ t.rh = s.rh := by
  cases h <;> simp

/-- Settles O40: the operands by the cases of the row, the planes by whether the operation is ENCODE. -/
theorem runningOperationKeepsOperands : Obligations.RunningOperationKeepsOperands := by
  intro s t h hr hop
  obtain ⟨r, hrow, hd⟩ := step_running_did h hr hop
  obtain ⟨hhost, hraster, harg, hrw, hrh⟩ := hd.operands_kept
  obtain ⟨hdlen, hdbuf, hblack, hred⟩ := hd.onlyDest
  refine ⟨hhost, hraster, harg, hdlen, hrw, hrh, hdbuf, ?_, ?_⟩
  · rintro (hne | h1)
    · obtain ⟨h0, l0, -, -⟩ := hd.planes_kept hrow hne
      exact ⟨h0, l0⟩
    · exact hblack h1
  · rintro (hne | h0)
    · obtain ⟨-, -, h1, l1⟩ := hd.planes_kept hrow hne
      exact ⟨h1, l1⟩
    · exact hred h0

end Sys2Proof.Machine

/-! The host's ports: requests, registers, buffers and the raster (10_state R43, R44, R50, R53, R57), and the values after
reset (R58). -/

namespace Sys2Proof.Machine

/-- Settles O8: by the definition of the state after reset. -/
theorem resetValues : Obligations.ResetValues :=
  ⟨rfl, rfl, rfl, rfl, rfl, rfl, rfl, rfl, rfl, rfl, rfl, rfl, rfl, rfl, rfl, rfl, rfl, rfl, rfl,
    fun b _ => by cases b <;> rfl⟩

theorem accept_of_running {s : State} (hop : s.op ≠ .idle) (op : Op) (arg : Byte) : s.accept op arg = s := by
  rw [State.accept, if_neg hop]

theorem rejectReserved_of_running {s : State} (hop : s.op ≠ .idle) (o : BitVec 4) (arg : Byte) :
    s.rejectReserved o arg = s := by
  rw [State.rejectReserved, if_neg hop]

/-- Each host operation is acceptance of its OP. -/
theorem exec_hostOps : ∀ p ∈ hostOps, ∀ (arg : Byte) (s : State), exec (p.2 arg) s = .next (s.accept p.1 arg) := by
  simp only [hostOps, List.forall_mem_cons]
  exact ⟨fun _ _ => rfl, fun _ _ => rfl, fun _ _ => rfl, fun _ _ => rfl, fun _ _ => rfl, fun _ _ => rfl, fun _ _ => rfl,
    fun _ _ => rfl, fun _ _ => rfl, fun _ _ => rfl, by simp⟩

/-- Each reserved code is a rejection with its op field. -/
theorem exec_reservedOps :
    ∀ p ∈ reservedOps, ∀ (arg : Byte) (s : State), exec (p.2 arg) s = .next (s.rejectReserved p.1 arg) := by
  simp only [reservedOps, List.forall_mem_cons]
  exact ⟨fun _ _ => rfl, fun _ _ => rfl, fun _ _ => rfl, fun _ _ => rfl, fun _ _ => rfl, fun _ _ => rfl, by simp⟩

/-- Settles O13: acceptance and rejection alike look at OP first. -/
theorem runningBlockAcceptsNoRequest : Obligations.RunningBlockAcceptsNoRequest := by
  constructor
  · intro p hp arg s hop
    rw [exec_hostOps p hp, accept_of_running hop]
  · intro p hp arg s hop
    rw [exec_reservedOps p hp, rejectReserved_of_running hop]

/-- The bits of a word that `status` puts together. -/
theorem statusWord_bits : ∀ (c : BitVec 2) (a g p l : Bool),
    let v := BitVec.ofNat 16 (c.toNat + 4 * bit a + 8 * bit g + 16 * bit p + 32 * bit l)
    v.extractLsb' 0 2 = c ∧ v.getLsbD 2 = a ∧ v.getLsbD 3 = g ∧ v.getLsbD 4 = p ∧ v.getLsbD 5 = l ∧
      v.extractLsb' 6 10 = 0#10 := by
  decide

/-- The bits of a word that `pins` puts together. -/
theorem pinsWord_bits : ∀ r d c o : Bool,
    let v := BitVec.ofNat 16 (bit r + 2 * bit d + 4 * bit c + 8 * bit o)
    v.getLsbD 0 = r ∧ v.getLsbD 1 = d ∧ v.getLsbD 2 = c ∧ v.getLsbD 3 = o ∧ v.extractLsb' 4 12 = 0#12 := by
  decide

/-- The bits of the ERR word. -/
theorem errWord_bits :
    ∀ e : BitVec 2, (e.setWidth 16).extractLsb' 0 2 = e ∧ (e.setWidth 16).extractLsb' 2 14 = 0#14 := by
  decide

/-- The numbers 8 to 15 read as 0. -/
theorem readReg_of_le {n : BitVec 4} (hn : 8#4 ≤ n) (s : State) : s.readReg n = some 0#16 := by
  unfold State.readReg
  split
  case h_9 => rfl
  all_goals (rename_i h; simp [BitVec.le_def, h] at hn)

/-- Settles O45: the words by their bits, the operand registers and the pins by the definitions of the ports. -/
theorem registerWordsBitByBit : Obligations.RegisterWordsBitByBit := by
  intro s
  have hactive : (s.op != .idle) = decide (s.op ≠ .idle) := by rw [Bool.eq_iff_iff]; simp
  refine ⟨⟨_, rfl, hactive ▸ statusWord_bits _ _ _ _ _⟩, ⟨_, rfl, errWord_bits _⟩, ⟨_, rfl, pinsWord_bits _ _ _ _⟩,
    fun hop => ?_, fun n hn => readReg_of_le hn s, fun hg => ?_, fun hg p => ?_⟩
  · simp [State.readReg, State.opReady, hop]
  · simp [State.pinOut, State.oe, hg]
  · simp [State.pinOut, State.oe, hg]

/-- A number outside 2 to 6 names no register that can be written. -/
theorem writeReg_other {n : BitVec 4} (hn : n < 2#4 ∨ 6#4 < n) (v : Word16) (s : State) : s.writeReg n v = s := by
  unfold State.writeReg
  split
  case h_6 => rfl
  all_goals (rename_i h; simp [BitVec.lt_def, h] at hn)

/-- Settles O46: the step is `writeReg`, which is a match on the register's number. -/
theorem registerWritesByNumber : Obligations.RegisterWritesByNumber := by
  intro s n v rest hr hop hh
  have hs : step s = .next ((s.tick.withHost rest).writeReg n v) := step_hostAct hr hop hh (by simp)
  refine ⟨?_, ?_, ?_, ?_, ?_, ?_⟩
  · rintro rfl; exact hs
  · rintro rfl; exact hs
  · rintro rfl; exact hs
  · rintro rfl; exact hs
  · rintro rfl; exact hs
  · intro hn
    rw [hs, writeReg_other hn]
    rfl

/-- Settles O47: the write lands as `setBuf_bufByte` says, or is the fault of `hostAct`. -/
theorem bufferWritesLandInPlace : Obligations.BufferWritesLandInPlace := by
  intro s b i v rest hm hr hop hh
  have hs := step_hostAct hr hop hh (by simp)
  constructor
  · intro hi
    refine ⟨(s.tick.withHost rest).setBuf b i.toNat v, ?_, by simpa using hop, by simp, by simp, fun c k => ?_⟩
    · rw [hs, State.hostAct, if_pos hi]
    · rw [setBuf_bufByte _ _ _ _ _ _ (memOk_buf (s := s.tick.withHost rest) hm b)]
      simp only [eq_comm (a := b), eq_comm (a := i.toNat)]
      rfl
  · intro hi
    rw [hs, State.hostAct, if_neg (by omega)]

/-- A byte that is found is listed. -/
theorem Memory.mem_of_find? {m : Memory} {a : Nat} {v : Byte} (h : m.find? a = some v) : (a, v) ∈ m := by
  induction m with
  | nil => simp at h
  | cons c m ih =>
    rw [Memory.find?] at h
    split at h
    · rename_i hc
      cases h
      exact hc ▸ List.mem_cons_self
    · exact List.mem_cons_of_mem c (ih h)

/-- In a canonical memory the first index is below all others. -/
theorem Memory.lt_of_wf_cons {c d : Host.Cell} {m : Memory} (h : Memory.wf (c :: m) = true) (hd : d ∈ m) : c.1 < d.1 := by
  induction m generalizing c with
  | nil => cases hd
  | cons e m ih =>
    simp only [Memory.wf, Bool.and_eq_true, decide_eq_true_eq] at h
    rcases List.mem_cons.mp hd with rfl | hd
    · exact h.1
    · exact h.1.trans (ih h.2 hd)

theorem Memory.wf_tail {c : Host.Cell} {m : Memory} (h : Memory.wf (c :: m) = true) : Memory.wf m = true := by
  cases m with
  | nil => rfl
  | cons d m =>
    simp only [Memory.wf, Bool.and_eq_true] at h
    exact h.2

/-- In a canonical memory a byte is found where it is listed. -/
theorem Memory.find?_of_mem {m : Memory} {a : Nat} {v : Byte} (hw : m.wf = true) (h : (a, v) ∈ m) :
    m.find? a = some v := by
  induction m with
  | nil => cases h
  | cons c m ih =>
    rw [Memory.find?]
    rcases List.mem_cons.mp h with rfl | hm
    · simp
    · have hlt : c.1 < a := Memory.lt_of_wf_cons hw hm
      rw [if_neg (by omega), ih (Memory.wf_tail hw) hm]

/-- Settles O59: a raster's listed pixels are a canonical memory. -/
theorem presentedRasterIsRead : Obligations.PresentedRasterIsRead := by
  intro s r rest hr hop hh
  refine ⟨_, step_hostAct hr hop hh (by simp), rfl, ?_⟩
  rintro bg px rfl hw x y -
  simp only [withRaster_raster, Raster.pixel]
  refine ⟨fun v hv => by rw [Memory.find?_of_mem hw hv]; rfl, fun hn => ?_⟩
  cases hf : Memory.find? px (65536 * y + x) with
  | none => rfl
  | some v => exact absurd (Memory.mem_of_find? hf) (hn v)

end Sys2Proof.Machine

/-! The buffers' canonical form along every step (20_memory R69, 10_state R50; log 5), read off the cases of a step. -/

namespace Sys2Proof.Machine

/-- A scan of one pixel writes within the plane, or not at all (42_encoder R200). -/
theorem scanPixel_memOk {s : State} (h : s.MemOk) : s.scanPixel.MemOk := by
  rcases scanPixel_eq s with e | ⟨k, v, hk, e⟩ <;> rw [e]
  · exact h
  · exact setBuf_memOk s s.dest k v h (by rwa [dest_depth])

/-- Of the rows only FILL and SCAN write a buffer, and they write within the plane's bytes. -/
theorem RowDid.memOk {s t : State} {r : Row} (h : RowDid s r t) (hm : s.MemOk) : t.MemOk := by
  cases h with
  | fillByte hi => exact memOk_congr (setBuf_memOk s s.dest _ 0xFF#8 hm (by rwa [dest_depth])) rfl rfl rfl
  | scanX | scanY | scanEnd => exact memOk_congr (scanPixel_memOk hm) rfl rfl rfl
  | _ => exact memOk_congr hm (by simp) (by simp) (by simp)

/-- Hardware reset leaves no byte listed. -/
theorem memOk_hardReset (s : State) : s.hardReset.MemOk :=
  memOk_congr resetMeetsTheInvariants.1 rfl rfl rfl

/-- Settles O48: hardware reset empties the memories, the host writes within a buffer's depth or the step faults, and a
running block does what its row does. -/
theorem memoriesStayCanonical : Obligations.MemoriesStayCanonical := by
  intro s t hm h
  rcases step_cases h with ⟨-, rfl⟩ | ⟨-, -, -, rfl⟩ | ⟨w, rest, -, hop, -, he⟩ | ⟨n, v, rest, -, -, -, rfl⟩ |
    ⟨b, i, v, rest, -, -, -, hi, rfl⟩ | ⟨r, rest, -, -, -, rfl⟩ | ⟨r, -, -, -, rfl⟩
  · exact memOk_hardReset s
  · exact hm
  · rcases exec_request_idle (s := s.tick.withHost rest) hop he with ⟨x, rfl⟩ | ⟨op, -, -, rfl⟩ <;> exact hm
  · obtain ⟨_, _, _, _, _, hw⟩ := exists_writeReg_eq (s.tick.withHost rest) n v
    rw [hw]
    exact hm
  · exact setBuf_memOk (s.tick.withHost rest) b i.toNat v hm hi
  · exact hm
  · exact (rowStep_did r s.tick).memOk hm

end Sys2Proof.Machine

/-! A transfer that the collaborator has not finished (20_memory R71, 60_exceptions R227; log 1). -/

namespace Sys2Proof.Machine

/-- SUB 2 of a frame takes an answer that is not final and does nothing else. -/
theorem frameStep_of_pending {s : State} (hs : s.seq.sub = 2#2) (hx : s.xferAt 0 = .pending) (dc : Level)
    (bs : List Byte) (fin : State → State) : s.frameStep dc bs fin = s.popXfer := by
  simp [State.frameStep, hs, State.transferStep, hx]

/-- So does every row that sends frames. -/
theorem rowStep_of_pending {s : State} {r : Row} (hf : r.sendsFrames = true) (hs : s.seq.sub = 2#2)
    (hx : s.xferAt 0 = .pending) : s.rowStep r = s.popXfer := by
  cases r with
  | cmd | data => exact frameStep_of_pending hs hx ..
  | loopData =>
    rw [State.rowStep, State.loopStep, if_neg (by simp [hs])]
    exact frameStep_of_pending hs hx ..
  | _ => cases hf

/-- Settles O24: by induction on the number of unfinished answers, each of which takes one step. -/
theorem unfinishedTransferHolds : Obligations.UnfinishedTransferHolds := by
  intro n
  induction n with
  | zero => exact fun s r _ _ _ _ _ _ => ⟨s, reaches_zero s, rfl, rfl, rfl, rfl⟩
  | succ n ih =>
    intro s r hop hq hrow hf hs hx
    have hstep : step s = .next s.tick.popXfer := by
      rw [step_running (quiet_inReset hq) hop hrow, rowStep_of_pending (s := s.tick) hf hs (hx 0 n.succ_pos)]
    have hahead : ∀ k < n, s.tick.popXfer.xferAt k = .pending := fun k hk =>
      (xferAt_popXfer s.tick k).trans (hx (k + 1) (Nat.succ_lt_succ hk))
    obtain ⟨t, ht, htrace, htop, hseq, hcs⟩ := ih s.tick.popXfer r hop (quiet_of_tail hq rfl) hrow hf hs hahead
    exact ⟨t, reaches_succ hstep ht, htrace, htop, hseq, hcs⟩

end Sys2Proof.Machine

/-! Which bits of the encoded plane a pixel clears (20_memory R61, R62, 42_encoder R194 to R198). -/

namespace Sys2Proof.Machine

/-- Native pixel `yx` is black and in bounds, and bit `j` of byte `k` is its bit of the plane. -/
structure ClearsBit (rw rh : Word16) (r : Raster) (k j : Nat) (yx : Nat × Nat) : Prop where
  black : r.blackAt rw rh yx.1 yx.2 = true
  byte : packIndex (packStride rw) yx.1 yx.2 / 8 = k
  bit : j = 7 - yx.2 % 8

theorem blackAt_iff (r : Raster) (rw rh : Word16) (y x : Nat) :
    r.blackAt rw rh y x = true ↔ x < rw.toNat ∧ y < rh.toNat ∧ (r.pixel x y).toNat < 128 := by
  rw [Raster.blackAt, isBlack, Bool.and_eq_true, Bool.and_eq_true, decide_eq_true_eq, decide_eq_true_eq,
    decide_eq_true_eq, and_assoc]
  rfl

theorem mem_scanOrder {y x : Nat} : (y, x) ∈ scanOrder ↔ y < 212 ∧ x < 104 := by
  simp [scanOrder, Config.width, Config.height]

/-- One pixel clears its own bit and leaves the others. -/
theorem packPixel_bit (rw rh : Word16) (r : Raster) {p : List Byte} (yx : Nat × Nat) {k j : Nat} (hk : k < p.length)
    (hj : j < 8) : ((packPixel rw rh r p yx)[k]?.getD 0#8).getLsbD j = false ↔
      (p[k]?.getD 0#8).getLsbD j = false ∨ ClearsBit rw rh r k j yx := by
  unfold packPixel
  split
  · rename_i hb
    by_cases hi : packIndex (packStride rw) yx.1 yx.2 / 8 = k
    · have hc : ClearsBit rw rh r k j yx ↔ j = 7 - yx.2 % 8 := ⟨ClearsBit.bit, .mk hb hi⟩
      rw [hc, hi, List.getElem?_modify_eq, List.getElem?_eq_getElem hk, Option.map_eq_map, Option.map_some,
        Option.getD_some, Option.getD_some, packMask_bit _ _ j hj, Bool.and_eq_false_iff, Bool.not_eq_false',
        decide_eq_true_eq]
    · have hc : ¬ ClearsBit rw rh r k j yx := fun h => hi h.byte
      simp [hc, hi]
  · rename_i hb
    have hc : ¬ ClearsBit rw rh r k j yx := fun h => hb h.black
    simp [hc]

/-- The bits that are 0 after some pixels are those that were 0 and those that one of the pixels clears. -/
theorem foldl_packPixel_bit (rw rh : Word16) (r : Raster) (l : List (Nat × Nat)) {p : List Byte} {k j : Nat}
    (hk : k < p.length) (hj : j < 8) : ((l.foldl (packPixel rw rh r) p)[k]?.getD 0#8).getLsbD j = false ↔
      (p[k]?.getD 0#8).getLsbD j = false ∨ ∃ yx ∈ l, ClearsBit rw rh r k j yx := by
  induction l generalizing p with
  | nil => simp
  | cons yx l ih =>
    rw [List.foldl_cons, ih (by rwa [packPixel_length]), packPixel_bit rw rh r yx hk hj, or_assoc,
      List.exists_mem_cons_iff]

/-- A bit of the encoded plane is 0 if and only if a pixel of the scan clears it. -/
theorem encodePlane_bit (rw rh : Word16) (r : Raster) {k j : Nat} (hk : k < 2756) (hj : j < 8) :
    ((encodePlane rw rh r)[k]?.getD 0#8).getLsbD j = false ↔ ∃ yx ∈ scanOrder, ClearsBit rw rh r k j yx := by
  have hlen : k < (List.replicate Config.planeBytes 0xFF#8).length := by rwa [List.length_replicate]
  have hones : ∀ j < 8, (0xFF#8).getLsbD j = true := by decide
  rw [encodePlane, foldl_packPixel_bit rw rh r scanOrder hlen hj, List.getElem?_eq_getElem hlen, List.getElem_replicate,
    Option.getD_some, hones j hj]
  simp

/-- At width 104 the rows are 13 bytes apart. -/
theorem packIndex_div_eight_of_width (y x : Nat) : packIndex (packStride 104#16) y x / 8 = 13 * y + x / 8 := by
  have h : packStride 104#16 = 104 := by decide
  rw [packIndex, h]
  omega

/-- Settles O55: at width 104 two pixels of the scan with the same byte and the same bit are the same pixel. -/
theorem normalRasterIsRowMajor : Obligations.NormalRasterIsRowMajor := by
  intro rh r y x hy hx
  rw [encodePlane_bit 104#16 rh r (by omega) (by omega)]
  constructor
  · rintro ⟨⟨y', x'⟩, hmem, hblack, hbyte, hbit⟩
    obtain ⟨hy', hx'⟩ := mem_scanOrder.mp hmem
    rw [packIndex_div_eight_of_width] at hbyte
    obtain ⟨rfl, rfl⟩ : y' = y ∧ x' = x := by dsimp only at hbyte hbit; omega
    exact ((blackAt_iff ..).mp hblack).2
  · intro hpix
    exact ⟨(y, x), mem_scanOrder.mpr ⟨hy, hx⟩, (blackAt_iff ..).mpr ⟨hx, hpix⟩, packIndex_div_eight_of_width y x, rfl⟩

end Sys2Proof.Machine

/-! The two encodings of 30_encoding: the command byte (R91, R105 to R114) and the request word (R93, R94, R115; log 14). -/

namespace Sys2Proof

/-- In a table with no key twice, to look a key up is to find its row. -/
theorem lookup_eq_some_iff_mem {α β : Type} [BEq α] [LawfulBEq α] {l : List (α × β)} (hl : (l.map Prod.fst).Nodup)
    {k : α} {v : β} : l.lookup k = some v ↔ (k, v) ∈ l := by
  induction l with
  | nil => simp
  | cons p l ih =>
    obtain ⟨a, b⟩ := p
    obtain ⟨ha, hl⟩ := List.nodup_cons.mp hl
    by_cases h : k = a
    · subst h
      have hk : (k, v) ∉ l := fun hm => ha (List.mem_map.mpr ⟨_, hm, rfl⟩)
      simp [hk, eq_comm]
    · have hk : (k == a) = false := beq_false_of_ne h
      simp [List.lookup_cons, h, hk, ih hl]

/-- The decoder of the wire accepts what its table finds. -/
theorem decodeWire_eq_ok_iff {c : Byte} {i : Instr} : decodeWire c = .ok i ↔ wireTable.lookup c = some i := by
  unfold decodeWire
  split
  · rename_i j hj
    rw [hj, Except.ok.injEq, Option.some.injEq]
  · rename_i hj
    simp [hj]

/-- Settles O3: the decoder's table is the panel command set, and no code stands in it twice. -/
theorem wireCommandsAreTheTen : Obligations.WireCommandsAreTheTen := by
  intro c i
  have hnodup : (wireTable.map Prod.fst).Nodup := by decide
  rw [decodeWire_eq_ok_iff, lookup_eq_some_iff_mem hnodup]
  rfl

/-- A command byte that names an instruction is decoded alone. -/
theorem decode_wire_cons {c : Byte} {i : Instr} (h : decodeWire c = .ok i) (rest : List Byte) :
    decode .wire (c :: rest) = .ok (i, rest) := by
  simp only [decode, h]

/-- Settles O1: a wire command is read back from its row of the table, a request from the two fields of its word. -/
theorem decodeEncodeRoundTrip : Obligations.DecodeEncodeRoundTrip := by
  intro i rest
  cases i with
  | boosterSoftStart | powerOn | panelSetting | vcomAndInterval | resolutionSetting | displayBlack | displayRed | refresh
  | powerOff | deepSleep => exact decode_wire_cons rfl rest
  | reset | init | display | clear | readbusy | sleep | sendcmd | senddata | sendbuf | encode | reserved0 | reservedB
  | reservedC | reservedD | reservedE | reservedF =>
    exact (decode_requestBytes _ _ rest).trans (by simp [decodeRequest])

/-- A request is encoded as the word it was decoded from: each op field has its own row (30_encoding R94, R115). -/
theorem encode_decodeRequest (w : BitVec 12) : encode (decodeRequest w) = requestBytes (reqOp w) (reqArg w) := by
  rw [decodeRequest]
  split
  case h_16 =>
    have hlt := (reqOp w).isLt
    have h : 15 = (reqOp w).toNat := by
      simp only [imp_false] at *
      omega
    exact congrArg (requestBytes · (reqArg w)) (BitVec.eq_of_toNat_eq h)
  all_goals
    rename_i h
    exact congrArg (requestBytes · (reqArg w)) (BitVec.eq_of_toNat_eq h.symm)

/-- A request word is an instruction of the request port. -/
theorem space_decodeRequest (w : BitVec 12) : (decodeRequest w).space = .host := by
  rw [decodeRequest]
  split <;> rfl

/-- Settles O2: the bytes of the word are its two fields. -/
theorem requestWordKeepsItsFields : Obligations.RequestWordKeepsItsFields := by
  intro w
  exact ⟨by rw [encode_decodeRequest, requestBytes_eq], space_decodeRequest w⟩

/-- Settles O4: the decoder evaluated at the eight words. -/
theorem writtenOutWordsDecode : Obligations.WrittenOutWordsDecode := by
  unfold Obligations.WrittenOutWordsDecode
  decide

end Sys2Proof

/-! The six reserved request codes (30_encoding R115). -/

namespace Sys2Proof.Machine

/-- Settles O11: on an idle block a reserved code is BadRequest, which `rejected` writes out. -/
theorem reservedCodesAreBadRequests : Obligations.ReservedCodesAreBadRequests := by
  intro p hp arg s hop
  rw [exec_reservedOps p hp, State.rejectReserved, if_pos hop]
  rfl

end Sys2Proof.Machine

/-! The run of the two operations that send frames of planes, DISPLAY and CLEAR, over the table they share (41_protocol
R167, R168, 30_encoding R121). -/

namespace Sys2Proof.Machine

/-- The bytes a LOOPDATA row sends (41_protocol R159). -/
def LoopForm.sent (s : State) (l : LoopForm) : List Byte := (List.range (l.count s)).map fun k => l.byte s k

/-- How many bytes a LOOPDATA row sends depends on the two lengths alone. -/
theorem LoopForm.count_congr {s t : State} (h0 : t.len0 = s.len0) (h1 : t.len1 = s.len1) (l : LoopForm) :
    l.count t = l.count s := by
  cases l <;> simp only [LoopForm.count, h0, h1]

/-- Which bytes a LOOPDATA row sends depends on ARG, the two lengths and the buffers alone. -/
theorem LoopForm.sent_congr {s t : State} (ha : t.arg = s.arg) (h0 : t.len0 = s.len0) (h1 : t.len1 = s.len1)
    (hb : ∀ b k, t.bufByte b k = s.bufByte b k) (l : LoopForm) : l.sent t = l.sent s := by
  cases l <;> simp only [LoopForm.sent, LoopForm.count, LoopForm.byte, ha, h0, h1, hb]

/-- What `Ended` says of the state an operation began in concerns its trace, its operands and its bytes alone. -/
theorem Ended.congr {s u t : State} {o : Op} {es : List Event} {v : View} (h : Ended s o es v t)
    (htr : s.trace = u.trace) (ha : s.arg = u.arg) (h0 : s.len0 = u.len0) (h1 : s.len1 = u.len1)
    (hb : ∀ b k, s.bufByte b k = u.bufByte b k) : Ended u o es v t :=
  { h with
    trace := by rw [h.trace, htr]
    arg := h.arg.trans ha
    len0 := h.len0.trans h0
    len1 := h.len1.trans h1
    bytes := fun b k => (h.bytes b k).trans (hb b k) }

/-- The eight rows of `tableFrame`, from an accepted request to the return. A frame writes over the DC and the CS that the
frames before it left, so REFRESH alone says how the latches end. -/
theorem Ran.tableFrame {n m : Nat} {s : State} {op : Op} {black red : LoopForm} {v : View}
    (h : Ran n s op 0 0 0 0 [] v) (ht : phaseTable op = Machine.tableFrame black red)
    (hx : s.xfersOk (3 + black.count s + red.count s)) (hb : s.busyFor m) :
    ∃ t, Reaches (n + (17 + 4 * black.count s + 4 * red.count s + 2 * m)) s t ∧
      Ended s op (frameEvents (black.sent s) (red.sent s) m) (v.framed false).released t := by
  have hrow (k : Nat) : (phaseTable op)[k]? = (Machine.tableFrame black red)[k]? := by rw [ht]
  have h1 := h.cmd (hrow 0) (hx _ (by omega))
  have h2 := h1.loop (hrow 1) fun k hk => hx _ (by omega)
  have h3 := h2.cmd (hrow 2) (hx _ (by omega))
  have h4 := h3.loop (hrow 3) fun k hk => hx _ (by omega)
  have h5 := h4.cmd (hrow 4) (hx _ (by omega))
  have h6 := h5.delay (hrow 5)
  have h7 := h6.wait m (hrow 6) (fun k hk => by rw [Nat.zero_add]; exact hb.1 k hk) (by rw [Nat.zero_add]; exact hb.2)
  obtain ⟨t, hr, he⟩ := h7.finish (hrow 7)
  exact ⟨t, reaches_cast hr (by omega), he⟩

/-- An operation over `tableFrame`, from its request to its return. -/
theorem reaches_tableFrame {m : Nat} {s : State} {w : BitVec 12} {op : Op} {black red : LoopForm} (h : s.ready w)
    (hw : reqOp w = op.code) (hv : valid op s.session = true) (hl : s.badLength op = false)
    (ht : phaseTable op = tableFrame black red)
    (hx : s.xfersOk (3 + black.count s + red.count s)) (hb : s.busyFor m) :
    ∃ t, Reaches (18 + 4 * black.count s + 4 * red.count s + 2 * m) s t ∧
      Ended (s.withArg (reqArg w)) op
        (frameEvents (black.sent (s.withArg (reqArg w))) (red.sent (s.withArg (reqArg w))) m)
        (s.view.framed false).released t := by
  have hop : op ≠ .idle := by rintro rfl; simp [phaseTable, tableFrame] at ht
  obtain ⟨a, hr, ha, htr, harg, hl0, hl1, -, hby, hxa, hba⟩ := accepted_run h hop hw hv hl
  have hcount (l : LoopForm) : l.count a = l.count s := l.count_congr hl0 hl1
  have hsent (l : LoopForm) : l.sent a = l.sent (s.withArg (reqArg w)) :=
    l.sent_congr (s := s.withArg (reqArg w)) harg hl0 hl1 hby
  obtain ⟨t, hrt, he⟩ := ha.tableFrame (m := m) ht (fun k hk => by rw [hxa]; exact hx k (by simpa [hcount] using hk))
    ⟨fun k hk => (hba k).trans (hb.1 k hk), (hba m).trans hb.2⟩
  rw [hcount, hcount] at hrt
  rw [hsent, hsent] at he
  exact ⟨t, reaches_cast (reaches_add hr hrt) (by omega), he.congr htr harg hl0 hl1 hby⟩

/-- CLEAR, from its request to its return. -/
theorem reaches_clear {m : Nat} {s : State} {w : BitVec 12} (h : s.ready w) (hw : reqOp w = 0x4#4)
    (hs : s.session = .initialized) (hx : s.xfersOk 5515) (hb : s.busyFor m) :
    ∃ t, Reaches (22066 + 2 * m) s t ∧
      Ended (s.withArg (reqArg w)) .clear
        (frameEvents (List.replicate 2756 (reqArg w)) (List.replicate 2756 (reqArg w)) m)
        (s.view.framed false).released t := by
  have hcount : LoopForm.fill.count s = 2756 := rfl
  have hsent : LoopForm.fill.sent (s.withArg (reqArg w)) = List.replicate 2756 (reqArg w) := by
    simp [LoopForm.sent, LoopForm.count, LoopForm.byte, Config.planeBytes]
  obtain ⟨t, hr, he⟩ := reaches_tableFrame (op := .clear) (black := .fill) (red := .fill) h hw (by rw [hs]; rfl) rfl rfl
    (by rwa [hcount]) hb
  rw [hcount] at hr
  rw [hsent] at he
  exact ⟨t, reaches_cast hr (by omega), he⟩

/-- DISPLAY, from its request to its return. -/
theorem reaches_display {m : Nat} {s : State} {w : BitVec 12} (h : s.ready w) (hw : reqOp w = 0x3#4)
    (hs : s.session = .initialized) (hx : s.xfersOk (3 + planeBound s.len0 + planeBound s.len1)) (hb : s.busyFor m) :
    ∃ t, Reaches (18 + 4 * planeBound s.len0 + 4 * planeBound s.len1 + 2 * m) s t ∧
      Ended (s.withArg (reqArg w)) .display
        (frameEvents (s.sentBytes .plane0 s.len0) (s.sentBytes .plane1 s.len1) m)
        (s.view.framed false).released t :=
  reaches_tableFrame (op := .display) h hw (by rw [hs]; rfl) rfl rfl hx hb

/-- A length of 2756 or more is cut to the whole plane (41_protocol R170). -/
theorem planeBound_of_full {n : Word16} (h : 2756 ≤ n.toNat) : planeBound n = 2756 := Nat.min_eq_right h

/-- A plane full of `f` is sent as 2756 bytes `f`. -/
theorem sentBytes_of_full {s : State} {b : Buf} {n : Word16} {f : Byte} (h : 2756 ≤ n.toNat)
    (hf : ∀ k < 2756, s.bufByte b k = f) : s.sentBytes b n = List.replicate 2756 f := by
  rw [State.sentBytes, planeBound_of_full h, List.eq_replicate_iff]
  simpa using hf

/-- Settles O32: with its planes full of `f`, DISPLAY sends the bytes that CLEAR of `f` sends, over the same table. -/
theorem clearEqualsDisplayOfFullPlanes : Obligations.ClearEqualsDisplayOfFullPlanes := by
  intro s u w v m hs hw hss hsx hsb hu hv hus hux hub h0 h1 hf
  obtain ⟨t, hrt, ht⟩ := reaches_clear hs hw hss hsx hsb
  have hux' : u.xfersOk (3 + planeBound u.len0 + planeBound u.len1) := by
    rwa [planeBound_of_full h0, planeBound_of_full h1]
  obtain ⟨x, hrx, hx⟩ := reaches_display hu hv hus hux' hub
  rw [planeBound_of_full h0, planeBound_of_full h1] at hrx
  rw [sentBytes_of_full h0 fun k hk => (hf k hk).1, sentBytes_of_full h1 fun k hk => (hf k hk).2] at hx
  exact ⟨_, t, x, _, hrt, reaches_cast hrx (by omega), ht.trace, hx.trace⟩

end Sys2Proof.Machine

/-! The sub-steps of a frame one by one (40_transport R131, R133, R136; log 28), and the ten panel commands, each of which
is one sub-step of the command frame of its code (R131; log 12). -/

namespace Sys2Proof.Machine

section
variable {s : State} {dc : Level} {bs : List Byte} {fin : State → State}

theorem frameStep_of_sub_zero (hs : s.seq.sub = 0#2) : s.frameStep dc bs fin = (s.pin .dc dc).withSub 1#2 := by
  simp [State.frameStep, hs]

theorem frameStep_of_sub_one (hs : s.seq.sub = 1#2) : s.frameStep dc bs fin = (s.pin .cs false).withSub 2#2 := by
  simp [State.frameStep, hs]

theorem frameStep_of_answer {r : XferResult} (hs : s.seq.sub = 2#2) (hx : s.xferAt 0 = .answer r) :
    s.frameStep dc bs fin =
      (s.popXfer.emit (.xfer bs r)).withSeq { s.seq with sub := 3#2, xfail := r == .fail } := by
  simp [State.frameStep, hs, State.transferStep, hx]

theorem frameStep_of_sub_three (hs : s.seq.sub = 3#2) : s.frameStep dc bs fin = s.closeFrame fin := by
  simp [State.frameStep, hs]

theorem closeFrame_of_good (hx : s.seq.xfail = false) : s.closeFrame fin = fin (s.pin .cs true) := by
  simp [State.closeFrame, hx]

theorem closeFrame_of_failed_low (hx : s.seq.xfail = true) (hc : s.csL = false) : s.closeFrame fin = s.pin .cs true := by
  simp [State.closeFrame, hx, hc]

theorem closeFrame_of_failed_high (hx : s.seq.xfail = true) (hc : s.csL = true) :
    s.closeFrame fin = s.raise s.op.code .transferFailure := by
  simp [State.closeFrame, hx, hc]

end

/-- A panel command sends its code where the sequencer stands at it. -/
theorem exec_panelCommands : ∀ p ∈ panelCommands, ∀ s : State, exec p.2 s = .next (s.sendAt p.1) := by
  simp only [panelCommands, List.forall_mem_cons]
  exact ⟨fun _ => rfl, fun _ => rfl, fun _ => rfl, fun _ => rfl, fun _ => rfl, fun _ => rfl, fun _ => rfl, fun _ => rfl,
    fun _ => rfl, fun _ => rfl, by simp⟩

/-- The instructions of the wire are the ten panel commands. -/
theorem exists_mem_panelCommands {i : Instr} (h : i.space = .wire) : ∃ c, (c, i) ∈ panelCommands := by
  cases i with
  | boosterSoftStart | powerOn | panelSetting | vcomAndInterval | resolutionSetting | displayBlack | displayRed | refresh
  | powerOff | deepSleep => simp [panelCommands]
  | _ => cases h

/-- At its row a panel command takes one sub-step of its frame. -/
theorem exec_panelCommand_at_row {p : Byte × Instr} (hp : p ∈ panelCommands) {s : State}
    (hc : s.commandByte? = some p.1) : exec p.2 s = .next (s.frameStep false [p.1] State.nextPhase) := by
  rw [exec_panelCommands p hp, State.sendAt, if_pos hc, State.commandStep]

/-- Settles O15: the first two sub-steps of the frame. -/
theorem commandFrameSelects : Obligations.CommandFrameSelects := by
  intro p hp s hc
  rw [exec_panelCommand_at_row hp hc]
  constructor
  · intro hs
    rw [frameStep_of_sub_zero hs]
    rfl
  · intro hs
    rw [frameStep_of_sub_one hs]
    rfl

/-- Settles O16: the third sub-step, by what the collaborator answers. -/
theorem commandFrameTransfers : Obligations.CommandFrameTransfers := by
  intro p hp s hc hs
  rw [exec_panelCommand_at_row hp hc]
  constructor
  · intro r hx
    rw [frameStep_of_answer hs hx]
    rfl
  · intro hx
    rw [frameStep_of_pending hs hx]
    rfl

/-- Settles O17: the fourth sub-step, by XFAIL and CS. -/
theorem commandFrameCloses : Obligations.CommandFrameCloses := by
  intro p hp s hc hs
  rw [exec_panelCommand_at_row hp hc, frameStep_of_sub_three hs]
  refine ⟨fun hx => ?_, fun hx hcs => ?_, fun hx hcs => ?_⟩
  · rw [closeFrame_of_good hx]
    rfl
  · rw [closeFrame_of_failed_low hx hcs]
    rfl
  · rw [closeFrame_of_failed_high hx hcs]
    rfl

/-- What a sub-step of a command frame can touch: the two latches, the trace, the answers ahead and the counters but Y, X
and STRIDE; or it ends the operation by TransferFailure. -/
inductive CommandDid (s : State) : State → Prop
  | goesOn (q : SeqRegs) (es : List Event) (dc cs : Level) (l : List XferAnswer) (n : Nat) (hy : q.y = s.seq.y)
      (hx : q.x = s.seq.x) (hstride : q.stride = s.seq.stride) :
      CommandDid s { s with seq := q, trace := es, dcL := dc, csL := cs, xferIn := l, xferDrawn := n }
  | fails : CommandDid s (s.raise s.op.code .transferFailure)

theorem commandStep_did (s : State) (c : Byte) : CommandDid s (s.commandStep c) := by
  rw [State.commandStep]
  rcases frameStep_cases false [c] State.nextPhase s with
    ⟨-, h⟩ | ⟨-, h⟩ | ⟨-, -, h⟩ | ⟨x, -, -, h⟩ | ⟨-, -, -, h⟩ | ⟨-, -, -, h⟩ | ⟨-, -, h⟩ <;> rw [h]
  iterate 5 exact .goesOn _ _ _ _ _ _ rfl rfl rfl
  · exact .fails
  · exact .goesOn _ _ _ _ _ _ rfl rfl rfl

theorem sendAt_did (s : State) (c : Byte) : CommandDid s (s.sendAt c) := by
  rw [State.sendAt]
  split
  · exact commandStep_did s c
  · exact .goesOn s.seq s.trace s.dcL s.csL s.xferIn s.xferDrawn rfl rfl rfl

/-- Settles O18: a panel command is at most one sub-step of its frame, which goes on or fails. -/
theorem frameOfThePanelCommands : Obligations.FrameOfThePanelCommands := by
  intro i s t hi h
  obtain ⟨c, hc⟩ := exists_mem_panelCommands hi
  rw [exec_panelCommands _ hc] at h
  have hdid : CommandDid s t := Host.Outcome.next.inj h ▸ sendAt_did s c
  cases hdid with
  | goesOn q es dc cs l n hy hx hstride =>
    exact ⟨rfl, rfl, rfl, rfl, rfl, rfl, rfl, rfl, rfl, rfl, rfl, fun _ _ => rfl, rfl, rfl, rfl, fun _ => rfl,
      .inl ⟨rfl, rfl, rfl, hy, hx, hstride⟩⟩
  | fails =>
    exact ⟨rfl, rfl, rfl, rfl, rfl, rfl, rfl, rfl, rfl, rfl, rfl, fun _ _ => rfl, rfl, rfl, rfl, fun _ => rfl,
      .inr ⟨rfl, rfl, rfl, rfl, rfl, rfl⟩⟩

end Sys2Proof.Machine

/-! The frames of the rows that send them, from any SUB to the next row or to the return of TransferFailure (40_transport
R131, R133, R136, 20_memory R71; log 1, 28). -/

namespace Sys2Proof.Machine

/-- The four events of a frame with the given level of DC (40_transport R131, R133). -/
def frameOf (dc : Level) (bs : List Byte) (x : XferResult) : List Event :=
  [.pin .dc dc, .pin .cs false, .xfer bs x, .pin .cs true]

/-- A command frame is the frame of one byte with DC at 0. -/
theorem frameOf_false (c : Byte) (x : XferResult) : frameOf false [c] x = cmdFrame c x := rfl

/-- A data frame is a frame with DC at 1. -/
theorem frameOf_true (bs : List Byte) (x : XferResult) : frameOf true bs x = dataFrame bs x := rfl

/-- The events of a frame from SUB on, once its fourth step has written CS. -/
theorem atClose_pin_trace (dc : Level) (bs : List Byte) (x : XferResult) (p : Nat) (s : State) :
    ((atClose dc bs x p s).pin .cs true).trace = s.trace ++ (frameOf dc bs x).drop s.seq.sub.toNat := by
  have hle : s.seq.sub.toNat ≤ ([.pin .dc dc, .pin .cs false, .xfer bs x] : List Event).length :=
    Nat.le_of_lt_succ s.seq.sub.isLt
  rw [pin_trace, atClose, List.append_assoc, ← List.drop_append_of_le_length hle]
  rfl

/-- A good frame whose end clears SUB. -/
theorem frameSent_atClose (dc : Level) (bs : List Byte) (p : Nat) (s : State) {q : SeqRegs} (hq : q.sub = 0#2) :
    FrameSent dc (frameOf dc bs .ok) s (((atClose dc bs .ok p s).pin .cs true).withSeq q) where
  trace := atClose_pin_trace dc bs .ok p s
  cs := rfl
  dc := rfl
  op := rfl
  sub := hq
  session := rfl
  gpio := rfl
  spi := rfl
  rst := rfl

/-- A failed frame and the return of TransferFailure. -/
theorem frameFailed_atClose (dc : Level) (bs : List Byte) (p : Nat) (s : State) :
    FrameFailed dc (frameOf dc bs .fail) s
      (((atClose dc bs .fail p s).pin .cs true).tick.raise s.op.code .transferFailure) where
  trace := by simp only [raise_trace, tick_trace, atClose_pin_trace, Exc.code]
  cs := rfl
  dc := rfl
  op := rfl
  err := rfl
  done := rfl
  session := by simp [atClose]
  gpio := by simp [atClose]
  spi := by simp [atClose]
  rst := by simp [atClose]

/-- Taking levels of rst_n leaves it at 1. -/
theorem quiet_of_drop {s t : State} {n : Nat} (h : s.quiet) (ht : t.rstIn = s.rstIn.drop n) : t.quiet :=
  fun v hv => h v (List.mem_of_mem_drop (ht ▸ hv))

section
variable {dc : Level} {bs : List Byte} {r : Row} {s : State} {p : Nat}

/-- A good frame of a CMD or a DATA row leads to the next row. -/
theorem reaches_frameSent (hq : s.quiet) (hop : s.op ≠ .idle) (hrow : s.row? = some r)
    (hf : FrameRow dc bs State.nextPhase r s) (hg : s.frameGets p .ok) :
    ∃ t, Reaches (4 - s.seq.sub.toNat + p) s t ∧ t.quiet ∧ FrameSent dc (frameOf dc bs .ok) s t ∧
      t.seq.ph = s.seq.ph + 1#6 ∧ t.seq.idx = 0#16 :=
  ⟨_, reaches_good hq hop hrow hf hg, quiet_of_drop hq rfl, frameSent_atClose dc bs p s rfl, rfl, rfl⟩

/-- A failed frame of any row leads to the return of TransferFailure. -/
theorem reaches_frameFailed {fin : State → State} (hq : s.quiet) (hop : s.op ≠ .idle) (hrow : s.row? = some r)
    (hf : FrameRow dc bs fin r s) (hg : s.frameGets p .fail) (hc : 2 ≤ s.seq.sub.toNat → s.csL = false) :
    ∃ t, Reaches (5 - s.seq.sub.toNat + p) s t ∧ FrameFailed dc (frameOf dc bs .fail) s t :=
  ⟨_, reaches_failed hq hop hrow hf hg hc, frameFailed_atClose dc bs p s⟩

end

/-- A command byte is that of the CMD row the sequencer stands at. -/
theorem exists_cmd_of_commandByte? {s : State} {c : Byte} (h : s.commandByte? = some c) :
    ∃ f : CmdForm, s.row? = some (.cmd f) ∧ f.byte s = c := by
  unfold State.commandByte? at h
  split at h
  · rename_i f hrow
    exact ⟨f, hrow, Option.some.inj h⟩
  · cases h

/-- Settles O20: the row's steps are those of a command frame. -/
theorem commandRowSendsItsFrame : Obligations.CommandRowSendsItsFrame := by
  intro s c p hop hq hc
  obtain ⟨f, hrow, rfl⟩ := exists_cmd_of_commandByte? hc
  have hf := cmd_frameRow s f
  refine ⟨fun hg => ?_, reaches_frameFailed hq hop hrow hf⟩
  obtain ⟨t, ht, -, hsent⟩ := reaches_frameSent hq hop hrow hf hg
  exact ⟨t, ht, hsent⟩

/-- Settles O21: the row's steps are those of a data frame of all its bytes. -/
theorem dataRowSendsOneFrame : Obligations.DataRowSendsOneFrame := by
  intro s d p hop hq hrow
  have hf := data_frameRow s d
  refine ⟨fun hg => ?_, reaches_frameFailed hq hop hrow hf⟩
  obtain ⟨t, ht, -, hsent⟩ := reaches_frameSent hq hop hrow hf hg
  exact ⟨t, ht, hsent⟩

/-- SUB 3 of a row that sends frames closes its frame. -/
theorem exists_rowStep_eq_closeFrame {s : State} {r : Row} (hr : r.sendsFrames = true) (hs : s.seq.sub = 3#2) :
    ∃ fin, s.rowStep r = s.closeFrame fin := by
  cases r with
  | cmd | data => exact ⟨_, frameStep_of_sub_three hs⟩
  | loopData =>
    rw [State.rowStep, State.loopStep, if_neg (by simp [hs])]
    exact ⟨_, frameStep_of_sub_three hs⟩
  | _ => cases hr

/-- Past its transfer a frame's result is the one XFAIL holds. -/
theorem xfail_of_frameGets {s : State} {p : Nat} {x : XferResult} (hg : s.frameGets p x) (hs : s.seq.sub = 3#2) :
    s.seq.xfail = (x == .fail) := by
  rw [State.frameGets, if_pos hs] at hg
  exact hg.2

/-- Settles O23: the frames of the three rows fail alike, and at SUB 3 the step of each is that of a failed frame's end. -/
theorem failedTransferStillDeselects : Obligations.FailedTransferStillDeselects := by
  intro s p hop hq hg
  refine ⟨fun hc => ⟨fun c hrow => ?_, fun d hrow => ?_, fun l hrow hl => ?_⟩, fun r hrow hr hs => ?_⟩
  · exact reaches_frameFailed hq hop hrow (cmd_frameRow s c) hg hc
  · exact reaches_frameFailed hq hop hrow (data_frameRow s d) hg hc
  · exact reaches_frameFailed hq hop hrow (loop_frameRow hl) hg hc
  · have hx : s.tick.seq.xfail = true := xfail_of_frameGets hg hs
    have hrun := reaches_row hq hop hrow
    obtain ⟨fin, hfin⟩ := exists_rowStep_eq_closeFrame (s := s.tick) hr hs
    rw [hfin] at hrun
    constructor
    · intro hcs
      rw [closeFrame_of_failed_low hx hcs] at hrun
      exact ⟨_, hrun, rfl, rfl, rfl, rfl⟩
    · intro hcs
      rw [closeFrame_of_failed_high hx hcs] at hrun
      exact ⟨_, hrun, rfl, hcs, rfl, rfl, rfl⟩

/-- Past the first sub-step of a frame, which writes DC, no step of the frame does. -/
theorem RowDid.dcL_of_in_frame {s t : State} {r : Row} (h : RowDid s r t) (hr : r.sendsFrames = true)
    (hs : s.seq.sub ≠ 0#2) : t.dcL = s.dcL := by
  cases h with
  | dc _ _ _ hsub => exact absurd hsub hs
  | cs | pending | transfer | deselect | failed | cmdEnd | dataEnd | byteEnd | loopEnd => simp
  | _ => cases hr

/-- Settles O44: CS at 0 means that the sequencer stands inside a frame, past the step that writes DC. -/
theorem dcHeldWhileSelected : Obligations.DcHeldWhileSelected := by
  intro s t hseq hsess h hr hcs
  obtain ⟨hop, ⟨r, hrow, hsends⟩, hsub⟩ := hsess.select hcs
  obtain ⟨r', hrow', hdid⟩ := step_running_did h hr hop
  obtain rfl : r = r' := Option.some.inj (hrow.symm.trans hrow')
  have hs : s.seq.sub ≠ 0#2 := by rcases hsub with h | h <;> simp [h]
  exact hdid.dcL_of_in_frame hsends hs

end Sys2Proof.Machine

/-! The three transport operations from request to return, and the check of SENDBUF's length (40_transport R132, R134, R135,
60_exceptions R224, R228). -/

namespace Sys2Proof.Machine

/-- A request that is not valid in the session state is rejected with InvalidState, whatever its length. -/
theorem accept_of_not_valid {s : State} {op : Op} (hop : s.op = .idle) (hv : valid op s.session = false) (arg : Byte) :
    s.accept op arg = s.rejected op.code 2#2 arg := by
  rcases accept_cases op arg s with ⟨h, -⟩ | ⟨-, -, h⟩ | ⟨-, h, -⟩ | ⟨-, h, -⟩
  · exact absurd hop h
  · exact h
  iterate 2 simp [hv] at h

/-- An admitted request with a bad length is rejected with BadRequest. -/
theorem accept_of_badLength {s : State} {op : Op} (hop : s.op = .idle) (hv : valid op s.session = true)
    (hl : s.badLength op = true) (arg : Byte) : s.accept op arg = s.rejected op.code 3#2 arg := by
  rcases accept_cases op arg s with ⟨h, -⟩ | ⟨-, h, -⟩ | ⟨-, -, -, h⟩ | ⟨-, -, h, -⟩
  · exact absurd hop h
  · simp [hv] at h
  · exact h
  · simp [hl] at h

/-- The model's check of SENDBUF's length is that of 40_transport R135. -/
theorem badLength_eq_false_iff {op : Op} {s : State} : s.badLength op = false ↔ s.lengthOk op := by
  have hz : s.dlen = 0#16 ↔ s.dlen.toNat = 0 := by rw [← BitVec.toNat_inj]; rfl
  by_cases h : op = .sendbuf
  · simp [State.badLength, State.lengthOk, h, hz, Nat.one_le_iff_ne_zero]
  · simp [State.badLength, State.lengthOk, h]

/-- Settles O12: the session state is checked before the length. -/
theorem sendbufLengthIsChecked : Obligations.SendbufLengthIsChecked := by
  intro arg s hop hlen
  have hexec : exec (.sendbuf arg) s = .next (s.accept .sendbuf arg) := rfl
  have hbad : s.badLength .sendbuf = true := by simpa [State.badLength] using hlen
  rw [hexec]
  constructor
  · intro hs
    rw [accept_of_badLength hop (by rw [hs]; rfl) hbad]
    rfl
  · intro hs
    have hv : valid .sendbuf s.session = false := by
      cases hst : s.session with
      | initialized => exact absurd hst hs
      | _ => rfl
    rw [accept_of_not_valid hop hv]
    rfl

/-- The code an operation of one frame returns. -/
def XferResult.returnCode (x : XferResult) : BitVec 2 := if x = .ok then 0#2 else 1#2

/-- What an operation of one frame leaves when it has returned (40_transport R132, R134, R135, R136). -/
structure OneFrameReturned (o : Op) (dc : Level) (bs : List Byte) (x : XferResult) (s t : State) : Prop where
  trace : t.trace = s.trace ++ frameOf dc bs x ++ [.ret o.code x.returnCode]
  op : t.op = .idle
  err : t.err = x.returnCode
  session : t.session = s.session
  cs : t.csL = true
  dc : t.dcL = dc

/-- A table of one frame row and END, from its first row to its return: END returns a good frame, TransferFailure a failed
one. -/
theorem reaches_oneFrame {dc : Level} {bs : List Byte} {x : XferResult} {p : Nat} {r : Row} {s : State}
    (ht : phaseTable s.op = [r, .finish]) (hph : s.seq.ph = 0#6) (hsub : s.seq.sub = 0#2) (hq : s.quiet)
    (hf : FrameRow dc bs State.nextPhase r s) (hx : s.answered 0 p x) :
    ∃ t, Reaches (5 + p) s t ∧ OneFrameReturned s.op dc bs x s t := by
  have hrow : s.row? = some r := by simp [State.row?, ht, hph]
  have hop := row_op hrow
  have hg : s.frameGets p x := by simpa [State.frameGets, hsub] using hx
  cases x with
  | ok =>
    obtain ⟨u, hu, huq, hsent, huph, -⟩ := reaches_frameSent hq hop hrow hf hg
    have hend : u.row? = some .finish := by simp [State.row?, hsent.op, huph, hph, ht]
    rw [hsub] at hu
    refine ⟨_, reaches_cast (reaches_add hu (reaches_row huq (row_op hend) hend)) (by simp; omega), ?_⟩
    exact
      { trace := by simp [State.rowStep, State.finish, hsent.trace, hsent.op, hsub, XferResult.returnCode]
        op := rfl
        err := rfl
        session := hsent.session
        cs := hsent.cs
        dc := hsent.dc.trans (if_pos hsub) }
  | fail =>
    obtain ⟨t, hr, hfail⟩ := reaches_frameFailed hq hop hrow hf hg (by simp [hsub])
    rw [hsub] at hr
    exact ⟨t, hr,
      { trace := by rw [hfail.trace, hsub]; rfl
        op := hfail.op
        err := hfail.err
        session := hfail.session
        cs := hfail.cs
        dc := hfail.dc.trans (if_pos hsub) }⟩

/-- SENDBUF's bytes depend on DLEN and the buffers alone. -/
theorem dbufBytes_congr {s t : State} (hd : t.dlen = s.dlen) (hb : ∀ b k, t.bufByte b k = s.bufByte b k) :
    t.dbufBytes = s.dbufBytes := by
  rw [State.dbufBytes, State.dbufBytes, hd, funext (hb .dbuf)]

/-- An operation of one frame from its request to its return; `hf` says which frame its row sends once the request is
accepted. -/
theorem reaches_transport {s : State} {w : BitVec 12} {op : Op} {r : Row} {dc : Level} {bs : List Byte} {x : XferResult}
    {p : Nat} (h : s.ready w) (hs : s.session = .initialized) (hx : s.answered 0 p x) (hw : reqOp w = op.code)
    (hv : valid op .initialized = true) (hl : s.lengthOk op) (ht : phaseTable op = [r, .finish])
    (hf : ∀ a : State, a.arg = reqArg w → a.dlen = s.dlen → (∀ b k, a.bufByte b k = s.bufByte b k) →
      FrameRow dc bs State.nextPhase r a) :
    ∃ t, Reaches (6 + p) s t ∧ t.trace = s.trace ++ frameOf dc bs x ++ [.ret op.code x.returnCode] ∧ t.op = .idle ∧
      t.err = x.returnCode ∧ t.session = .initialized ∧ t.csL = true ∧ t.dcL = dc := by
  have hop : op ≠ .idle := by rintro rfl; simp [phaseTable] at ht
  obtain ⟨a, hsa, ⟨b, hab, hb⟩, htr, harg, -, -, hdlen, hbytes, hxfer, -⟩ :=
    accepted_run h hop hw (by rw [hs, hv]) (badLength_eq_false_iff.mpr hl)
  cases hab
  have hxa : a.answered 0 p x := by simpa only [State.answered, hxfer] using hx
  have hta : phaseTable a.op = [r, .finish] := by rw [hb.op, ht]
  have hsess : a.session = s.session := congrArg View.session hb.view
  obtain ⟨t, hat, htrace, hidle, herr, hst, hcs, hdc⟩ :=
    reaches_oneFrame hta (BitVec.eq_of_toNat_eq hb.ph) hb.sub hb.quiet (hf a harg hdlen hbytes) hxa
  rw [htr, hb.op] at htrace
  exact ⟨t, reaches_cast (reaches_add hsa hat) (by omega), htrace, hidle, herr, hst.trans (hsess.trans hs), hcs, hdc⟩

/-- Settles O35: each of the three operations is one frame row and END. -/
theorem transportOperationsSendOneFrame : Obligations.TransportOperationsSendOneFrame := by
  intro s w x p h hs hx e
  refine ⟨fun hw => ?_, fun hw => ?_, fun hw h1 hd => ?_⟩
  · exact reaches_transport (op := .sendcmd) (bs := [reqArg w]) h hs hx hw rfl nofun rfl
      fun a harg _ _ => harg ▸ cmd_frameRow a .arg
  · exact reaches_transport (op := .senddata) (bs := [reqArg w]) h hs hx hw rfl nofun rfl
      fun a harg _ _ => harg ▸ data_frameRow a .arg
  · exact reaches_transport (op := .sendbuf) (bs := s.dbufBytes) h hs hx hw rfl (fun _ => ⟨h1, hd⟩) rfl
      fun a _ hdlen hbytes => dbufBytes_congr hdlen hbytes ▸ data_frameRow a .dbuf

end Sys2Proof.Machine

/-! Requests: acceptance in the order of its checks, and what a request leaves alone (41_protocol R153, R171, 60_exceptions
R226, R228). -/

namespace Sys2Proof.Machine

/-- An admitted request with a good length starts its operation. -/
theorem accept_of_admitted {s : State} {op : Op} (hop : s.op = .idle) (hv : valid op s.session = true)
    (hl : s.badLength op = false) (arg : Byte) : s.accept op arg = s.accepted op arg := by
  rcases accept_cases op arg s with ⟨h, -⟩ | ⟨-, h, -⟩ | ⟨-, -, h, -⟩ | ⟨-, -, -, h⟩
  · exact absurd hop h
  · simp [hv] at h
  · simp [hl] at h
  · exact h

/-- The three outcomes of acceptance, with the checks in the words of the statements. -/
theorem accept_outcomes {s : State} (hop : s.op = .idle) (op : Op) (arg : Byte) :
    (¬ admits op s.session → s.accept op arg = s.rejected op.code 2#2 arg) ∧
    (admits op s.session → ¬ s.lengthOk op → s.accept op arg = s.rejected op.code 3#2 arg) ∧
    (admits op s.session → s.lengthOk op → s.accept op arg = s.accepted op arg) := by
  rw [← valid_iff_admits, ← badLength_eq_false_iff, Bool.not_eq_true, Bool.not_eq_false]
  exact ⟨fun hv => accept_of_not_valid hop hv arg, fun hv hl => accept_of_badLength hop hv hl arg,
    fun hv hl => accept_of_admitted hop hv hl arg⟩

/-- No two operations have one code. -/
theorem Op.code_injective : Function.Injective Op.code := by
  have key : ∀ o ∈ allOps, ∀ p ∈ allOps, o.code = p.code → o = p := by decide
  exact fun o p => key o (mem_allOps o) p (mem_allOps p)

/-- The code of an operation is none of the reserved ones (30_encoding R94, R115). -/
theorem Op.code_not_reserved {op : Op} (h : op ≠ .idle) : ¬ (op.code = 0x0#4 ∨ 0xB#4 ≤ op.code) := by
  cases op with
  | idle => exact absurd rfl h
  | _ => decide

/-- A request whose op field names an operation is acceptance of that operation. -/
theorem exec_request_of_op {w : BitVec 12} {op : Op} (h : op ≠ .idle) (hw : reqOp w = op.code) (s : State) :
    exec (decodeRequest w) s = .next (s.accept op (reqArg w)) := by
  rcases exec_request w s with ⟨o, -, hc, he⟩ | ⟨hr, -⟩
  · obtain rfl : o = op := Op.code_injective (hc.trans hw)
    exact he
  · exact absurd (hw ▸ hr) (Op.code_not_reserved h)

/-- A request whose op field is reserved is a rejection with that field. -/
theorem exec_request_of_reserved {w : BitVec 12} (hw : reqOp w = 0x0#4 ∨ 0xB#4 ≤ reqOp w) (s : State) :
    exec (decodeRequest w) s = .next (s.rejectReserved (reqOp w) (reqArg w)) := by
  rcases exec_request w s with ⟨o, ho, hc, -⟩ | ⟨-, he⟩
  · exact absurd (hc ▸ hw) (Op.code_not_reserved ho)
  · exact he

/-- Settles O9: a word names an operation or is reserved, and acceptance has three outcomes. -/
theorem acceptanceInTheOrderOfChecks : Obligations.AcceptanceInTheOrderOfChecks := by
  intro w s hop
  constructor
  · intro hw
    rw [exec_request_of_reserved hw, State.rejectReserved, if_pos hop]
    rfl
  · intro op hidle hw
    obtain ⟨hstate, hlength, hok⟩ := accept_outcomes hop op (reqArg w)
    rw [exec_request_of_op hidle hw, hw]
    exact ⟨fun ha => congrArg _ (hstate ha), fun ha hl => congrArg _ (hlength ha hl), fun ha hl => congrArg _ (hok ha hl)⟩

/-- Settles O10: each host operation is acceptance of its OP, which has three outcomes. -/
theorem hostOperationIsAdmittedByState : Obligations.HostOperationIsAdmittedByState := by
  intro p hp arg s hop
  obtain ⟨hstate, -, hok⟩ := accept_outcomes hop p.1 arg
  rw [exec_hostOps p hp]
  exact ⟨fun ha hl => congrArg _ (hok ha hl), fun ha => congrArg _ (hstate ha)⟩

/-- The instructions of the request port are the ten host operations and the six reserved codes. -/
theorem exists_mem_requests {i : Instr} (h : i.space = .host) :
    (∃ p ∈ hostOps, ∃ arg, i = p.2 arg) ∨ ∃ p ∈ reservedOps, ∃ arg, i = p.2 arg := by
  cases i with
  | reset | init | display | clear | readbusy | sleep | sendcmd | senddata | sendbuf | encode =>
    exact .inl (by simp [hostOps])
  | reserved0 | reservedB | reservedC | reservedD | reservedE | reservedF => exact .inr (by simp [reservedOps])
  | _ => cases h

/-- What a request can do: nothing, a rejection, or the start of an operation. -/
inductive RequestDid (s : State) : State → Prop
  | held : RequestDid s s
  | rejected (o : BitVec 4) (e : BitVec 2) (arg : Byte) : RequestDid s (s.rejected o e arg)
  | accepted (op : Op) (arg : Byte) : RequestDid s (s.accepted op arg)

theorem accept_did (op : Op) (arg : Byte) (s : State) : RequestDid s (s.accept op arg) := by
  rcases accept_cases op arg s with ⟨-, h⟩ | ⟨-, -, h⟩ | ⟨-, -, -, h⟩ | ⟨-, -, -, h⟩ <;> rw [h]
  · exact .held
  · exact .rejected ..
  · exact .rejected ..
  · exact .accepted ..

theorem rejectReserved_did (o : BitVec 4) (arg : Byte) (s : State) : RequestDid s (s.rejectReserved o arg) := by
  rw [State.rejectReserved]
  split
  · exact .rejected ..
  · exact .held

/-- Every request does one of these. -/
theorem exec_request_did {i : Instr} {s t : State} (hi : i.space = .host) (h : exec i s = .next t) : RequestDid s t := by
  rcases exists_mem_requests hi with ⟨p, hp, arg, rfl⟩ | ⟨p, hp, arg, rfl⟩
  · rw [exec_hostOps p hp] at h
    exact Host.Outcome.next.inj h ▸ accept_did ..
  · rw [exec_reservedOps p hp] at h
    exact Host.Outcome.next.inj h ▸ rejectReserved_did ..

/-- Settles O14: a rejection and the start of an operation write ARG, the sequencer and the flags of the `Ret` alone. -/
theorem frameOfTheRequests : Obligations.FrameOfTheRequests := by
  intro i s t hi h
  cases exec_request_did hi h with
  | held | accepted =>
    exact ⟨rfl, rfl, rfl, rfl, rfl, rfl, rfl, rfl, rfl, rfl, rfl, rfl, fun _ _ => rfl, rfl, rfl, rfl, fun _ => rfl,
      fun _ => rfl, .inl ⟨rfl, rfl, rfl⟩⟩
  | rejected o e =>
    exact ⟨rfl, rfl, rfl, rfl, rfl, rfl, rfl, rfl, rfl, rfl, rfl, rfl, fun _ _ => rfl, rfl, rfl, rfl, fun _ => rfl,
      fun _ => rfl, .inr ⟨o, e, rfl, rfl, rfl⟩⟩

end Sys2Proof.Machine

/-! The step of the machine: which instruction it runs, that there always is one, and which of them transfer a byte
(41_protocol R150, R152, R171). -/

namespace Sys2Proof.Machine

/-- Settles O5: a request by `step_request`, a command code because the step of its CMD row is that command. -/
theorem stepRunsTheDecodedInstruction : Obligations.StepRunsTheDecodedInstruction := by
  constructor
  · intro s w rest hr hop hh
    exact step_request hr hop hh
  · intro s c i hr hop hc hi
    have hexec : exec i s.tick = .next (s.tick.commandStep c) := exec_of_decodeWire hi hc
    obtain ⟨f, hrow, hf⟩ := exists_cmd_of_commandByte? hc
    calc step s = .next (s.tick.rowStep (.cmd f)) := step_running hr hop hrow
      _ = .next (s.tick.commandStep c) := by rw [← hf]; rfl
      _ = exec i s.tick := hexec.symm

/-- Settles O19: by the condition of `sendAt`. -/
theorem panelCommandOnlyAtItsRow : Obligations.PanelCommandOnlyAtItsRow := by
  intro p hp s hc
  rw [exec_panelCommands p hp, State.sendAt, if_neg hc]

/-- A host action of an idle block has a next state, unless it is a buffer write past the end (log 17). -/
theorem step_host_cases {s : State} {a : HostAct} {rest : List HostAct} (hr : s.inReset = false) (hop : s.op = .idle)
    (hh : s.host = a :: rest) : (∃ t, step s = .next t) ∨
      ∃ b i v, a = .writeBuf b i v ∧ b.depth ≤ i.toNat ∧ step s = .fault .hostWriteOutside := by
  cases a with
  | request w =>
    rw [step_request hr hop hh]
    rcases exec_request w (s.tick.withHost rest) with ⟨op, -, -, he⟩ | ⟨-, he⟩
    · exact .inl ⟨_, he⟩
    · exact .inl ⟨_, he⟩
  | writeReg n v => exact .inl ⟨_, step_hostAct hr hop hh nofun⟩
  | present r => exact .inl ⟨_, step_hostAct hr hop hh nofun⟩
  | writeBuf b i v =>
    rw [step_hostAct hr hop hh nofun, State.hostAct]
    split
    · exact .inl ⟨_, rfl⟩
    · exact .inr ⟨b, i, v, rfl, by omega, rfl⟩

/-- Settles O52: hardware reset, the host's next action, or the row the sequencer stands at. -/
theorem noStepIsMissing : Obligations.NoStepIsMissing := by
  intro s hseq
  cases hr : s.inReset with
  | true => exact .inl ⟨_, step_inReset hr⟩
  | false =>
    by_cases hop : s.op = .idle
    · cases hh : s.host with
      | nil => exact .inl ⟨_, step_idle_nil hr hop hh⟩
      | cons a rest =>
        rcases step_host_cases hr hop hh with h | ⟨b, i, v, rfl, hi, h⟩
        · exact .inl h
        · exact .inr ⟨b, i, v, rest, rfl, hi, h⟩
    · obtain ⟨r, hrow, -⟩ := hseq hop
      exact .inl ⟨_, step_running hr hop hrow⟩

/-- The only event of an idle block is a `Ret`. -/
theorem step_idle_trace {s t : State} (h : step s = .next t) (hr : s.inReset = false) (hop : s.op = .idle) :
    t.trace = s.trace ∨ ∃ o e, t.trace = s.trace ++ [.ret o e] := by
  rcases step_cases h with ⟨hr', -⟩ | ⟨-, -, -, rfl⟩ | ⟨w, rest, -, -, -, he⟩ | ⟨n, v, rest, -, -, -, rfl⟩ |
    ⟨b, i, v, rest, -, -, -, -, rfl⟩ | ⟨r, rest, -, -, -, rfl⟩ | ⟨r, -, hrun, -⟩
  · simp [hr] at hr'
  · exact .inl rfl
  · rcases exec_request_idle (s := s.tick.withHost rest) hop he with ⟨x, rfl⟩ | ⟨op, -, -, rfl⟩
    · exact .inr ⟨_, _, rfl⟩
    · exact .inl rfl
  · exact .inl (writeReg_trace ..)
  · exact .inl (setBuf_trace ..)
  · exact .inl rfl
  · exact absurd hop hrun

/-- A row transfers bytes only at SUB 2 of a frame. -/
theorem RowDid.sub_of_xfer {s t : State} {r : Row} {bs : List Byte} {x : XferResult} (h : RowDid s r t)
    (hx : t.trace = s.trace ++ [.xfer bs x]) : r.sendsFrames = true ∧ s.seq.sub = 2#2 := by
  cases h with
  | transfer _ _ hr _ hs => exact ⟨hr, hs⟩
  | _ => simp [Exc.code] at hx

/-- Where a row that sends frames stands, the handles are held (41_protocol R165, R169, R171). -/
theorem State.SessOk.handles_of_sendsFrames {s : State} {r : Row} (h : s.SessOk) (hrow : s.row? = some r)
    (hr : r.sendsFrames = true) : s.spiOpen = true ∧ s.gpioOpen = true ∧ (s.session = .initialized ∨ s.op = .init) := by
  obtain ⟨hencode, hinit, hsleep⟩ := (sending_rows hrow).1 hr
  by_cases hop : s.op = .init
  · obtain ⟨hph, -⟩ := hinit hop
    exact ⟨h.initSpi hop hph, h.initGpio hop (by omega), .inr hop⟩
  · have hst : s.session = .initialized := by
      refine h.panelOps (row_op hrow) hop hencode ?_
      rintro ⟨ho, hph⟩
      have := hsleep ho
      omega
    have hreleased : ¬ s.sleepReleased := by
      rintro ⟨ho, hph⟩
      have := hsleep ho
      omega
    exact ⟨h.spi hst hreleased, h.gpio hst, .inl hst⟩

/-- Settles O43: a byte leaves at SUB 2 of a row that sends frames, where the invariant holds the handles and CS. -/
theorem transfersOnlyWithHandles : Obligations.TransfersOnlyWithHandles := by
  intro s t bs x hseq hsess h hr hx
  have hop : s.op ≠ .idle := by
    intro hop
    rcases step_idle_trace h hr hop with h' | ⟨o, e, h'⟩ <;> simp [h'] at hx
  obtain ⟨r, hrow, hdid⟩ := step_running_did h hr hop
  obtain ⟨hsends, hsub⟩ := hdid.sub_of_xfer hx
  obtain ⟨hspi, hgpio, hst⟩ := hsess.handles_of_sendsFrames hrow hsends
  exact ⟨hspi, hgpio, hst, (sessOk_iff.mp hsess).2.csL_of_sub_two hrow hsends hsub⟩

end Sys2Proof.Machine

/-! The rows of the phase tables that send no frame, one step at a time (41_protocol R154 to R156, R160 to R163). -/

namespace Sys2Proof.Machine

/-- Settles O25: the step of a running block is that of its row. -/
theorem rowsOfOneStep : Obligations.RowsOfOneStep := by
  intro s hr hop u
  refine ⟨fun h => step_running hr hop h, fun h => step_running hr hop h, fun h => step_running hr hop h,
    fun p v h => ?_, fun d h => step_running hr hop h, fun st h => step_running hr hop h⟩
  rw [step_running hr hop h]
  cases p <;> rfl

/-- A sample of BUSY at 1 ends the phase. -/
theorem waitStep_of_released {s : State} (hs : s.seq.sub = 0#2) (hb : s.busyAt 0 = true) :
    s.waitStep = (s.popBusy.sampled true).nextPhase := by
  simp [State.waitStep, hs, hb]

/-- A sample of BUSY at 0 leads to the delay. -/
theorem waitStep_of_busy {s : State} (hs : s.seq.sub = 0#2) (hb : s.busyAt 0 = false) :
    s.waitStep = (s.popBusy.sampled false).withSub 1#2 := by
  simp [State.waitStep, hs, hb]

/-- The delay leads to the next sample. -/
theorem waitStep_of_poll {s : State} (hs : s.seq.sub = 1#2) :
    s.waitStep = (s.emit (.delay Config.tBusyPoll)).withSub 0#2 := by
  simp [State.waitStep, hs]

/-- Settles O26: the three cases of a step of the busy-wait. -/
theorem waitRowPollsBusy : Obligations.WaitRowPollsBusy := by
  intro s hr hop hrow u
  have hstep : step s = .next s.tick.waitStep := step_running hr hop hrow
  rw [hstep]
  constructor
  · intro hs
    cases hb : s.busyAt 0 with
    | true =>
      rw [waitStep_of_released (s := s.tick) hs hb]
      rfl
    | false =>
      rw [waitStep_of_busy (s := s.tick) hs hb]
      rfl
  · intro hs
    rw [waitStep_of_poll (s := s.tick) hs]
    rfl

/-- Settles O27: END is the normal return. -/
theorem endRowReturns : Obligations.EndRowReturns := by
  intro s hr hop hrow
  exact step_running hr hop hrow

end Sys2Proof.Machine

/-! The busy-wait and the LOOPDATA row, from any state that stands at one (41_protocol R159, R160, 60_exceptions R227; log
1, 28). -/

namespace Sys2Proof.Machine

/-- A run starts where its sequencer stands. -/
theorem ran_here {s : State} (hq : s.quiet) (hs : s.seq.sub = 0#2) :
    Ran 0 s s.op s.seq.ph.toNat s.seq.idx.toNat 0 0 [] s.view :=
  ⟨s, reaches_zero s, rfl, rfl, hs, rfl, hq, by simp, by simp, by simp, rfl, rfl, rfl, rfl, fun _ _ => rfl, rfl⟩

/-- The first busy-wait of a run. -/
theorem Ran.firstWait {n m : Nat} {s : State} {op : Op} {ph i nx : Nat} {es : List Event} {v : View}
    (h : Ran n s op ph i nx 0 es v) (hr : (phaseTable op)[ph]? = some .waitBusy) (hb : s.busyFor m) :
    Ran (n + 2 * m + 1) s op (ph + 1) 0 nx (0 + m + 1) (es ++ busyWait m) v.released := by
  obtain ⟨hzero, hone⟩ := hb
  exact h.wait m hr (by simpa using hzero) (by simpa using hone)

/-- A run that has gone on by one row stands at the next PH. -/
theorem At.ph_eq_succ {s t : State} {r : Row} {op : Op} {i nx nb : Nat} {es : List Event} {v : View}
    (h : At s op (s.seq.ph.toNat + 1) i nx nb es v t) (hrow : s.row? = some r) : t.seq.ph = s.seq.ph + 1#6 :=
  BitVec.eq_of_toNat_eq (h.ph.trans (ph_succ rfl (row_lt hrow)).symm)

/-- A busy-wait after a sample of 0 and the delay that follows it. -/
def State.polled (s : State) : State :=
  ((s.tick.popBusy.sampled false).withSub 1#2).tick.emit (.delay Config.tBusyPoll) |>.withSub 0#2

@[simp] theorem polled_op (s : State) : s.polled.op = s.op := by simp [State.polled]
@[simp] theorem polled_session (s : State) : s.polled.session = s.session := by simp [State.polled]
@[simp] theorem polled_host (s : State) : s.polled.host = s.host := by simp [State.polled]
@[simp] theorem polled_trace (s : State) : s.polled.trace = s.trace ++ [.busy false, .delay 100] := by
  simp [State.polled, Config.tBusyPoll]

theorem polled_quiet {s : State} (h : s.quiet) : s.polled.quiet :=
  quiet_of_tail (quiet_of_tail (t := s.tick) h rfl) (by simp [State.polled])

/-- A sample of 0 and its delay lead back to where the busy-wait stood. -/
theorem polled_seq {s : State} (hs : s.seq.sub = 0#2) : s.polled.seq = s.seq := by
  have hsub : s.polled.seq = { s.seq with sub := 0#2 } := by simp [State.polled]
  rw [hsub, ← hs]

theorem polled_busyAt (s : State) (k : Nat) : s.polled.busyAt k = s.busyAt (k + 1) :=
  (busyAt_congr (by simp [State.polled]) (by simp [State.polled]) k).trans (busyAt_popBusy s k)

/-- Two steps of a busy-wait that reads 0. -/
theorem reaches_polled {s : State} (hq : s.quiet) (hrow : s.row? = some .waitBusy) (hs : s.seq.sub = 0#2)
    (hb : s.busyAt 0 = false) : Reaches 2 s s.polled := by
  have hsample := reaches_row hq (row_op hrow) hrow
  rw [State.rowStep, waitStep_of_busy (s := s.tick) hs hb] at hsample
  have hdelay := reaches_row (s := (s.tick.popBusy.sampled false).withSub 1#2) (quiet_of_tail hq rfl) (row_op hrow) hrow
  rw [State.rowStep, waitStep_of_poll rfl] at hdelay
  exact reaches_add hsample hdelay

/-- While BUSY reads 0 a busy-wait goes on: `n` samples and their delays lead back to where it stood. -/
theorem reaches_polls (n : Nat) {s : State} (hq : s.quiet) (hrow : s.row? = some .waitBusy) (hs : s.seq.sub = 0#2)
    (hb : ∀ k < n, s.busyAt k = false) : ∃ t, Reaches (2 * n) s t ∧ t.op = s.op ∧ t.seq = s.seq ∧
      t.session = s.session ∧ t.host = s.host ∧
      t.trace = s.trace ++ (List.replicate n [Event.busy false, Event.delay 100]).flatten := by
  induction n generalizing s with
  | zero => exact ⟨s, reaches_zero s, rfl, rfl, rfl, rfl, by simp⟩
  | succ n ih =>
    have hseq := polled_seq hs
    have hrow' : s.polled.row? = some .waitBusy := by
      rw [State.row?, hseq, polled_op]
      exact hrow
    obtain ⟨t, ht, hop, htseq, hst, hhost, htrace⟩ := ih (s := s.polled) (polled_quiet hq) hrow'
      (by rwa [hseq]) fun k hk => (polled_busyAt s k).trans (hb (k + 1) (Nat.succ_lt_succ hk))
    exact ⟨t, reaches_cast (reaches_add (reaches_polled hq hrow hs (hb 0 n.succ_pos)) ht) (by omega),
      by simp [hop], htseq.trans hseq, by simp [hst], by simp [hhost], by simp [htrace, List.replicate_succ]⟩

/-- Settles O37: the run over the row when BUSY is released, and the induction on the samples while it is not. -/
theorem busyWaitEndsOnlyWhenReleased : Obligations.BusyWaitEndsOnlyWhenReleased := by
  intro s hop hq hrow hs
  refine ⟨fun m hb => ?_, fun n hb => reaches_polls n hq hrow hs hb⟩
  obtain ⟨t, ht, h⟩ := (ran_here hq hs).firstWait hrow hb
  exact ⟨t, reaches_cast ht (by omega), h.trace, congrArg View.last h.view, h.op, h.ph_eq_succ hrow, h.sub⟩

/-- The first `i` bytes of a LOOPDATA row are sent, and IDX stands at `i`. -/
theorem ran_loop_bytes {s : State} {l : LoopForm} (hq : s.quiet) (hrow : s.row? = some (.loopData l))
    (hs : s.seq.sub = 0#2) (hi : s.seq.idx = 0#16) {p : Nat → Nat} {i : Nat} (hle : i ≤ l.count s)
    (hx : s.xfersOkAfter p i) :
    Ran (3 * i + asksOf p i) s s.op s.seq.ph.toNat i (asksOf p i) 0 (byteFrames ((List.range i).map fun k => l.byte s k))
      (s.view.looped i) := by
  have hstart : Ran 0 s s.op s.seq.ph.toNat 0 0 0 [] s.view := by simpa [hi] using ran_here hq hs
  simpa using hstart.loopAfter hrow p i hle (by simpa [State.xfersOkAfter] using hx)

/-- The failed frame of byte `i` of a LOOPDATA row, after the `i` good ones. -/
theorem reaches_loop_failed {s : State} {l : LoopForm} (hq : s.quiet) (hrow : s.row? = some (.loopData l))
    (hs : s.seq.sub = 0#2) (hi : s.seq.idx = 0#16) {p : Nat → Nat} {i : Nat} (hlt : i < l.count s)
    (hx : s.xfersOkAfter p i) (hfail : s.answered (asksOf p i) (p i) .fail) :
    ∃ u t, Reaches (3 * i + asksOf p (i + 1) + 4) s t ∧ FrameFailed true (dataFrame [l.byte s i] .fail) u t ∧
      u.seq.sub = 0#2 ∧ u.op = s.op ∧ u.trace = s.trace ++ byteFrames ((List.range i).map fun k => l.byte s k) := by
  obtain ⟨u, hsu, hu⟩ := ran_loop_bytes hq hrow hs hi (Nat.le_of_lt hlt) hx
  have hrowu : u.row? = some (.loopData l) := hu.row.trans hrow
  obtain ⟨hcount, hbyte⟩ := hu.loop (u := u) ⟨rfl, rfl, rfl, rfl, rfl, fun _ _ => rfl, rfl, id⟩ l i
  have hg : u.frameGets (p i) .fail := by simpa [State.frameGets, hu.sub, State.answered, hu.xfer] using hfail
  obtain ⟨t, hut, hf⟩ := reaches_frameFailed hu.quiet (row_op hrowu) hrowu
    (loop_frameRow fun _ => by rwa [hu.idx, hcount]) hg (by simp [hu.sub])
  rw [hu.idx, hbyte] at hf
  rw [hu.sub] at hut
  exact ⟨u, t, reaches_cast (reaches_add hsu hut) (by simp [asksOf]; omega), hf, hu.sub, hu.op, hu.trace⟩

/-- Settles O22: the bytes one after another, then the silent step, or the failed frame; and one good frame from any SUB. -/
theorem loopRowSendsItsBytesInOrder : Obligations.LoopRowSendsItsBytesInOrder := by
  intro s l hop hq hrow
  refine ⟨fun hs hi p => ⟨fun hx => ?_, fun i hle hx => ?_, fun i hlt hx hfail => ?_⟩, fun p hl hg => ?_,
    fun hl _ => by rw [hl]; rfl, fun hl _ => by rw [hl]; rfl, fun hl _ => by rw [hl]; rfl⟩
  · obtain ⟨t, ht, h⟩ := (ran_loop_bytes hq hrow hs hi (Nat.le_refl _) hx).loopEnd hrow
    exact ⟨t, ht, h.trace, h.op, h.ph_eq_succ hrow, h.sub, BitVec.eq_of_toNat_eq h.idx⟩
  · obtain ⟨t, ht, h⟩ := ran_loop_bytes hq hrow hs hi hle hx
    exact ⟨t, ht, h.trace, h.op, BitVec.eq_of_toNat_eq h.ph, h.sub, h.idx⟩
  · obtain ⟨u, t, ht, hf, husub, huop, hutrace⟩ := reaches_loop_failed hq hrow hs hi hlt hx hfail
    have htrace := hf.trace
    rw [husub, huop, hutrace] at htrace
    exact ⟨t, ht, htrace, hf.op, hf.err, hf.cs⟩
  · exact ⟨_, reaches_good hq hop hrow (loop_frameRow hl) hg, frameSent_atClose true _ p s rfl, rfl, rfl⟩

end Sys2Proof.Machine

/-! The operations from request to return (41_protocol R164 to R170): the rows of their tables as a chain. -/

namespace Sys2Proof.Machine

/-- An operation from its request to its return, from the run of its accepted state over its table. -/
theorem reaches_operation {n : Nat} {s : State} {w : BitVec 12} {op : Op} {es : List Event} {v : View} (h : s.ready w)
    (hop : op ≠ .idle) (hw : reqOp w = op.code) (hv : valid op s.session = true) (hl : s.badLength op = false)
    (hrun : ∀ a : State, Ran 0 a op 0 0 0 0 [] s.view → (∀ k, a.xferAt k = s.xferAt k) →
      (∀ k, a.busyAt k = s.busyAt k) → ∃ t, Reaches n a t ∧ Ended a op es v t) :
    ∃ t, Reaches (1 + n) s t ∧ Ended (s.withArg (reqArg w)) op es v t := by
  obtain ⟨a, hsa, ha, htr, harg, hl0, hl1, -, hbytes, hxfer, hbusy⟩ := accepted_run h hop hw hv hl
  obtain ⟨t, hat, he⟩ := hrun a ha hxfer hbusy
  exact ⟨t, reaches_add hsa hat, he.congr htr harg hl0 hl1 hbytes⟩

theorem xfersOk_congr {s a : State} {n : Nat} (h : ∀ k, a.xferAt k = s.xferAt k) (hx : s.xfersOk n) : a.xfersOk n :=
  fun k hk => (h k).trans (hx k hk)

theorem busyFor_congr {s a : State} {m : Nat} (h : ∀ k, a.busyAt k = s.busyAt k) (hb : s.busyFor m) : a.busyFor m :=
  ⟨fun k hk => (h k).trans (hb.1 k hk), (h m).trans hb.2⟩

/-- The six rows of the reset pulse, wherever a table has them (41_protocol R164, R165). -/
theorem Ran.pulse {n ph nx nb : Nat} {s : State} {op : Op} {es : List Event} {v : View} (h : Ran n s op ph 0 nx nb es v)
    (hr : ∀ k < 6, (phaseTable op)[ph + k]? = resetPulse[k]?) :
    Ran (n + 6) s op (ph + 6) 0 nx nb (es ++ pulseEvents) (v.latch .rst true) := by
  have h1 := h.pin (hr 0 (by omega))
  have h2 := h1.delay (hr 1 (by omega))
  have h3 := h2.pin (hr 2 (by omega))
  have h4 := h3.delay (hr 3 (by omega))
  have h5 := h4.pin (hr 4 (by omega))
  have h6 := h5.delay (hr 5 (by omega))
  simp only [List.append_assoc] at h6
  exact h6

/-- Settles O28: the pulse and END. -/
theorem resetPulsesTheLine : Obligations.ResetPulsesTheLine := by
  intro s w h hw hs
  obtain ⟨t, ht, he⟩ := reaches_operation (op := .reset) h nofun hw (by rw [hs]; rfl) rfl
    fun a ha _ _ => (ha.pulse (by decide)).finish rfl
  exact ⟨t, ht, he.trace, he.op, he.rst, he.dc, he.cs, he.session.trans hs, he.err, he.done, he.gpio, he.spi, he.last⟩

/-- Settles O33: the busy-wait and END. -/
theorem readbusyWaitsForRelease : Obligations.ReadbusyWaitsForRelease := by
  intro s w m h hw hs hb
  obtain ⟨t, ht, he⟩ := reaches_operation (op := .readbusy) h nofun hw (by rw [hs]; rfl) rfl
    fun a ha _ hbusy => (ha.firstWait rfl (busyFor_congr hbusy hb)).finish rfl
  exact ⟨t, reaches_cast ht (by omega), he.trace, he.op, he.last, he.err, he.session.trans hs, he.rst, he.dc, he.cs⟩

/-- What stands after the END row, its events and its view written otherwise. -/
theorem Ended.cast {s t : State} {o : Op} {es es' : List Event} {v v' : View} (h : Ended s o es v t) (hes : es = es')
    (hv : v = v') : Ended s o es' v' t := hes ▸ hv ▸ h

/-- What SLEEP leaves: SPI released, RST and DC at 0, GPIO as it was (41_protocol R169). -/
def View.asleep (v : View) : View where
  session := .sleeping
  gpio := v.gpio
  spi := false
  rst := false
  dc := false
  cs := true
  last := true

/-- The ten rows of SLEEP (41_protocol R169). -/
theorem Ran.tableSleep {m : Nat} {s : State} {v : View} (h : Ran 0 s .sleep 0 0 0 0 [] v) (hx : s.xfersOk 3)
    (hb : s.busyFor m) : ∃ t, Reaches (19 + 2 * m) s t ∧ Ended s .sleep (sleepEvents m) v.asleep t := by
  have h1 := h.cmd rfl (hx 0 (by omega))
  have h2 := h1.firstWait rfl hb
  have h3 := h2.cmd rfl (hx 1 (by omega))
  have h4 := h3.data rfl (hx 2 (by omega))
  have h5 := h4.delay rfl
  have h6 := h5.relSpi rfl
  have h7 := h6.pin rfl
  have h8 := h7.pin rfl
  have h9 := h8.setState rfl
  obtain ⟨t, ht, he⟩ := h9.finish rfl
  refine ⟨t, reaches_cast ht (by omega), he.cast ?_ rfl⟩
  simp [sleepEvents, byteFrames, CmdForm.byte, DataForm.bytes, Config.cmdPowerOff, Config.cmdDeepSleep,
    Config.deepSleepCheck, Config.tSleepSettle]

/-- Settles O34: the rows of SLEEP. -/
theorem sleepReleasesAndHoldsLow : Obligations.SleepReleasesAndHoldsLow := by
  intro s w m h hw hs hx hb
  obtain ⟨t, ht, he⟩ := reaches_operation (op := .sleep) h nofun hw (by rw [hs]; rfl) rfl
    fun a ha hxfer hbusy => ha.tableSleep (xfersOk_congr hxfer hx) (busyFor_congr hbusy hb)
  exact ⟨t, reaches_cast ht (by omega), he.trace, he.op, he.session, he.spi, he.gpio, he.rst, he.dc, he.cs, he.last, he.err⟩

/-- What INIT leaves, whatever it found: Initialized, both handles held, the latches and LASTBUSY at 1 (41_protocol
R165). -/
def View.initialized : View where
  session := .initialized
  gpio := true
  spi := true
  rst := true
  dc := true
  cs := true
  last := true

/-- The 24 rows of INIT (41_protocol R165): the handles, the pulse, the booster bytes, the power, the settings. -/
theorem Ran.tableInit {m : Nat} {s : State} {v : View} (h : Ran 0 s .init 0 0 0 0 [] v) (hx : s.xfersOk 13)
    (hb : s.busyFor m) : ∃ t, Reaches (63 + 2 * m) s t ∧ Ended s .init (initEvents m) .initialized t := by
  have h1 := h.acqGpio rfl
  have h2 := h1.acqSpi rfl
  have h8 := h2.pulse (by decide)
  have h9 := h8.cmd rfl (hx 0 (by omega))
  have h10 := h9.data rfl (hx 1 (by omega))
  have h11 := h10.data rfl (hx 2 (by omega))
  have h12 := h11.data rfl (hx 3 (by omega))
  have h13 := h12.cmd rfl (hx 4 (by omega))
  have h14 := h13.firstWait rfl hb
  have h15 := h14.cmd rfl (hx 5 (by omega))
  have h16 := h15.data rfl (hx 6 (by omega))
  have h17 := h16.cmd rfl (hx 7 (by omega))
  have h18 := h17.data rfl (hx 8 (by omega))
  have h19 := h18.cmd rfl (hx 9 (by omega))
  have h20 := h19.data rfl (hx 10 (by omega))
  have h21 := h20.data rfl (hx 11 (by omega))
  have h22 := h21.data rfl (hx 12 (by omega))
  have h23 := h22.setState rfl
  obtain ⟨t, ht, he⟩ := h23.finish rfl
  refine ⟨t, reaches_cast ht (by omega), he.cast ?_ rfl⟩
  simp [initEvents, byteFrames, CmdForm.byte, DataForm.bytes, Config.cmdBoosterSoftStart, Config.cmdPowerOn,
    Config.cmdPanelSetting, Config.cmdVcomAndInterval, Config.cmdResolutionSetting, Config.panelSettingData,
    Config.vcomData, Config.resHeightLow, Config.resWidthHigh, Config.resWidthLow, Config.height, Config.width]

/-- INIT is admitted in every session state but Initialized (41_protocol R171). -/
theorem valid_init {st : Session} (h : st ≠ .initialized) : valid .init st = true :=
  (valid_iff_admits _ _).mpr (.inr (.inl ⟨rfl, h⟩))

/-- INIT, from its request to its return. -/
theorem reaches_init {m : Nat} {s : State} {w : BitVec 12} (h : s.ready w) (hw : reqOp w = 0x2#4)
    (hs : s.session ≠ .initialized) (hx : s.xfersOk 13) (hb : s.busyFor m) :
    ∃ t, Reaches (64 + 2 * m) s t ∧ Ended (s.withArg (reqArg w)) .init (initEvents m) .initialized t := by
  obtain ⟨t, ht, he⟩ := reaches_operation (op := .init) h nofun hw (valid_init hs) rfl
    fun a ha hxfer hbusy => ha.tableInit (xfersOk_congr hxfer hx) (busyFor_congr hbusy hb)
  exact ⟨t, reaches_cast ht (by omega), he⟩

/-- The register words of an idle block in the view that INIT leaves (10_state R44). -/
theorem Ended.status_pins {s t : State} {o : Op} {es : List Event} (h : Ended s o es .initialized t) :
    t.status = 0x39 ∧ t.pins = 0x0F := by
  simp only [State.status, State.pins, State.oe, h.op, h.session, h.gpio, h.spi, h.last, h.rst, h.dc, h.cs]
  exact ⟨rfl, rfl⟩

/-- Settles O29: the rows of INIT. -/
theorem initConfiguresThePanel : Obligations.InitConfiguresThePanel := by
  intro s w m h hw hs hx hb
  obtain ⟨t, ht, he⟩ := reaches_init h hw hs hx hb
  exact ⟨t, ht, he.trace, he.op, he.session, he.gpio, he.spi, he.rst, he.dc, he.cs, he.last, he.err, he.done, he.status_pins⟩

/-- A busy-wait has no byte for the panel. -/
theorem panelBytes_busyWait_append (dc : Level) (m : Nat) (es : List Event) :
    panelBytes dc (busyWait m ++ es) = panelBytes dc es := by
  induction m with
  | zero => rfl
  | succ m ih => exact ih

/-- A good command frame has its byte, with DC at 0 from there on. -/
theorem panelBytes_cmdFrame_append (dc : Level) (c : Byte) (es : List Event) :
    panelBytes dc (cmdFrame c .ok ++ es) = (false, c) :: panelBytes false es := rfl

/-- Good data frames of one byte each have their bytes, with DC at 1 from there on. -/
theorem panelBytes_byteFrames_append (dc : Level) (b : Byte) (bs : List Byte) (es : List Event) :
    panelBytes dc (byteFrames (b :: bs) ++ es) = (b :: bs).map (fun b => (true, b)) ++ panelBytes true es := by
  induction bs generalizing dc b with
  | nil => rfl
  | cons c bs ih => exact congrArg (List.cons (true, b)) (ih true c)

/-- The panel bytes of INIT's events (95_test_vectors S6). -/
theorem panelBytes_initEvents (dc : Level) (m : Nat) : panelBytes dc (initEvents m) =
    [(false, 0x06#8), (true, Config.booster 0), (true, Config.booster 1), (true, Config.booster 2), (false, 0x04#8),
     (false, 0x00#8), (true, 0x8F#8), (false, 0x50#8), (true, 0xF0#8), (false, 0x61#8), (true, 0x68#8), (true, 0x00#8),
     (true, 0xD4#8)] := by
  have hpulse (es : List Event) :
      panelBytes dc (([.acq .gpio, .acq .spi] : List Event) ++ (pulseEvents ++ es)) = panelBytes dc es := rfl
  have hlast := panelBytes_byteFrames_append false 0x68#8 [0x00#8, 0xD4#8] []
  rw [List.append_nil] at hlast
  simp only [initEvents, List.append_assoc, hpulse, panelBytes_cmdFrame_append, panelBytes_byteFrames_append,
    panelBytes_busyWait_append, hlast]
  rfl

/-- Settles O57: the events of INIT's run and their bytes. -/
theorem initByteStream : Obligations.InitByteStream := by
  intro s w m h hw hs hx hb
  obtain ⟨t, ht, he⟩ := reaches_init h hw hs hx hb
  exact ⟨_, t, _, ht, he.op, he.trace, panelBytes_initEvents s.dcL m⟩

/-- Settles O30: `reaches_display`, field by field. -/
theorem displaySendsBothPlanes : Obligations.DisplaySendsBothPlanes := by
  intro s w m h hw hs hx hb
  obtain ⟨t, ht, he⟩ := reaches_display h hw hs hx hb
  exact ⟨t, ht, he.trace, he.op, he.session.trans hs, he.dc, he.cs, he.rst, he.last, he.err, he.len0, he.len1, he.bytes⟩

/-- Settles O31: `reaches_clear`, field by field. -/
theorem clearSendsTheFillByte : Obligations.ClearSendsTheFillByte := by
  intro s w m h hw hs hx hb
  obtain ⟨t, ht, he⟩ := reaches_clear h hw hs hx hb
  exact ⟨t, ht, he.trace, he.op, he.session.trans hs, he.dc, he.cs, he.rst, he.last, he.err, he.arg, he.len0, he.len1,
    he.bytes⟩

end Sys2Proof.Machine

/-! Whole encoded planes: their length, and the rasters of one colour (42_encoder R194 to R200, R205). -/

namespace Sys2Proof.Machine

theorem foldl_packPixel_length (rw rh : Word16) (r : Raster) (l : List (Nat × Nat)) (p : List Byte) :
    (l.foldl (packPixel rw rh r) p).length = p.length := by
  induction l generalizing p with
  | nil => rfl
  | cons yx l ih => rw [List.foldl_cons, ih, packPixel_length]

/-- Settles O53: no pixel changes the length of the filled plane. -/
theorem encodedPlaneHasItsLength : Obligations.EncodedPlaneHasItsLength := by
  intro rw rh r
  rw [encodePlane, foldl_packPixel_length, List.length_replicate]
  rfl

/-- Settles O54: `encodePlane_bit`, with the pixels of the scan and what is black in the words of the statement. -/
theorem encodedBitIsClearedByItsPixels : Obligations.EncodedBitIsClearedByItsPixels := by
  intro rw rh r k j hk hj
  rw [encodePlane_bit rw rh r hk hj]
  constructor
  · rintro ⟨⟨y, x⟩, hmem, hblack, hbyte, hbit⟩
    obtain ⟨hy, hx⟩ := mem_scanOrder.mp hmem
    obtain ⟨hrw, hrh, hpix⟩ := (blackAt_iff ..).mp hblack
    exact ⟨y, x, hy, hx, hrw, hrh, hpix, hbyte, hbit⟩
  · rintro ⟨y, x, hy, hx, hrw, hrh, hpix, hbyte, hbit⟩
    exact ⟨(y, x), mem_scanOrder.mpr ⟨hy, hx⟩, (blackAt_iff ..).mpr ⟨hrw, hrh, hpix⟩, hbyte, hbit⟩

/-- A plane with the bits of `v` in each of its bytes is 2756 times `v`. -/
theorem encodePlane_eq_replicate {rw rh : Word16} {r : Raster} {v : Byte}
    (h : ∀ k < 2756, ∀ j < 8, ((encodePlane rw rh r)[k]?.getD 0#8).getLsbD j = v.getLsbD j) :
    encodePlane rw rh r = List.replicate 2756 v := by
  refine List.eq_replicate_iff.mpr ⟨encodedPlaneHasItsLength rw rh r, fun b hb => ?_⟩
  obtain ⟨k, hk, rfl⟩ := List.getElem_of_mem hb
  refine BitVec.eq_of_getLsbD_eq fun j hj => ?_
  have hbit := h k (encodedPlaneHasItsLength rw rh r ▸ hk) j hj
  rwa [List.getElem?_eq_getElem hk, Option.getD_some] at hbit

/-- With all of the scan black, every bit is 0: bit `j` of byte `k` is the bit of pixel (k div 13, 8 (k mod 13) + 7 - j). -/
theorem encodePlane_bit_of_black {r : Raster} (h : ∀ x y, x < 104 → y < 212 → (r.pixel x y).toNat < 128) {k j : Nat}
    (hk : k < 2756) (hj : j < 8) : ((encodePlane 104#16 212#16 r)[k]?.getD 0#8).getLsbD j = false := by
  have hx : 8 * (k % 13) + (7 - j) < 104 := by omega
  have hy : k / 13 < 212 := by omega
  have hbyte : 13 * (k / 13) + (8 * (k % 13) + (7 - j)) / 8 = k := by omega
  have hbit : 7 - (8 * (k % 13) + (7 - j)) % 8 = j := by omega
  have hclear := (normalRasterIsRowMajor 212#16 r _ _ hy hx).mpr ⟨hy, h _ _ hx hy⟩
  rwa [hbyte, hbit] at hclear

/-- With no pixel black, every bit is 1. -/
theorem encodePlane_bit_of_white {rw rh : Word16} {r : Raster}
    (h : ∀ x y, x < rw.toNat → y < rh.toNat → 128 ≤ (r.pixel x y).toNat) {k j : Nat} (hk : k < 2756) (hj : j < 8) :
    ((encodePlane rw rh r)[k]?.getD 0#8).getLsbD j = true := by
  refine Bool.eq_true_of_not_eq_false fun hzero => ?_
  obtain ⟨yx, -, hclear⟩ := (encodePlane_bit rw rh r hk hj).mp hzero
  obtain ⟨hx, hy, hpix⟩ := (blackAt_iff ..).mp hclear.black
  exact absurd (h _ _ hx hy) (Nat.not_le_of_lt hpix)

/-- Settles O56: bit by bit, as every pixel or no pixel clears its bit. -/
theorem blackIsZeroWhiteIsOnes : Obligations.BlackIsZeroWhiteIsOnes := by
  have hones : ∀ j < 8, (0xFF#8).getLsbD j = true := by decide
  constructor
  · intro r h
    exact encodePlane_eq_replicate fun k hk j hj => (encodePlane_bit_of_black h hk hj).trans BitVec.getLsbD_zero.symm
  · intro rw rh r h
    exact encodePlane_eq_replicate fun k hk j hj => (encodePlane_bit_of_white h hk hj).trans (hones j hj).symm

end Sys2Proof.Machine

/-! ENCODE from its request to its return (42_encoder R194, R204, R206): FILL, SCAN, SETLEN, END (log 16). -/

namespace Sys2Proof.Machine

/-- One step leads from an admitted request to the accepted operation. -/
theorem reaches_accepted {s : State} {w : BitVec 12} {op : Op} (h : s.ready w) (hop : op ≠ .idle)
    (hw : reqOp w = op.code) (hv : valid op s.session = true) (hl : s.badLength op = false) :
    ∃ rest, Reaches 1 s ((s.tick.withHost rest).accepted op (reqArg w)) := by
  obtain ⟨hidle, hq, rest, hhost⟩ := h
  have hexec := exec_request_of_op hop hw (s.tick.withHost rest)
  rw [accept_of_admitted (s := s.tick.withHost rest) hidle hv hl] at hexec
  exact ⟨rest, reaches_succ ((step_request (quiet_inReset hq) hidle hhost).trans hexec) (reaches_zero _)⟩

/-- An accepted ENCODE has touched nothing yet. -/
theorem encoding_self {s : State} (hop : s.op = .encode) (hq : s.quiet) (hm : s.MemOk) (hs : s.seq.sub = 0#2) :
    Encoding s s where
  op := hop
  arg := rfl
  rw := rfl
  rh := rfl
  raster := rfl
  quiet := hq
  mem := hm
  other _ _ _ := rfl
  len0 := rfl
  len1 := rfl
  trace := rfl
  view := rfl
  sub := hs

/-- One step of ENCODE at row `ph` of its table. -/
theorem Encoding.step {s t : State} {r : Row} {ph : BitVec 6} (h : Encoding s t) (hp : t.seq.ph = ph)
    (hr : tableEncode[ph.toNat]? = some r) : Reaches 1 t (t.tick.rowStep r) :=
  reaches_row h.quiet (by simp [h.op]) (by rw [State.row?, h.op, hp]; exact hr)

/-- A plane whose 2756 bytes are all `v`. -/
theorem planeContents_eq_replicate {s : State} {b : Buf} {v : Byte} (h : ∀ k < 2756, s.bufByte b k = v) :
    s.planeContents b = List.replicate Config.planeBytes v := by
  have hmap : s.planeContents b = (List.range Config.planeBytes).map fun _ => v :=
    List.map_congr_left fun k hk => h k (List.mem_range.mp hk)
  rw [hmap, List.map_const', List.length_range]

/-- The whole of FILL: 2756 bytes and the step that begins the scan. -/
theorem Encoding.fill {s t : State} (h : Encoding s t) (hp : t.seq.ph = 0#6) (hi : t.seq.idx = 0#16) :
    ∃ u, Reaches 2757 t u ∧ Encoding s u ∧ u.seq.ph = 1#6 ∧ u.seq.idx = 0#16 ∧ u.seq.y = 0#8 ∧ u.seq.x = 0#7 ∧
      u.seq.stride.toNat = packStride s.rw ∧
      u.planeContents s.dest = List.replicate Config.planeBytes 0xFF#8 := by
  obtain ⟨u, htu, hu, hph, hidx, hstride, hbytes⟩ := fill_run h hp hi 2756 (Nat.le_refl _)
  have hend : u.tick.rowStep .fill = u.tick.withSeq { u.nextPhase.seq with y := 0#8, x := 0#7 } := by
    rw [State.rowStep, State.fillStep, if_neg (by rw [tick_seq, hidx]; decide)]
    rfl
  have hstep := hend ▸ hu.step hph rfl
  exact ⟨_, reaches_add htu hstep, hu.counters _ rfl, by simp [hph], rfl, rfl, rfl, hstride (by decide),
    planeContents_eq_replicate hbytes⟩

/-- The whole of SCAN: each pixel of the scan in its order. -/
theorem Encoding.scan {s t : State} (h : Encoding s t) (hp : t.seq.ph = 1#6) (hi : t.seq.idx = 0#16) (hy : t.seq.y = 0#8)
    (hx : t.seq.x = 0#7) (hst : t.seq.stride.toNat = packStride s.rw) :
    ∃ u, Reaches 22048 t u ∧ Encoding s u ∧ u.seq.ph = 2#6 ∧
      u.planeContents s.dest = scanOrder.foldl (packPixel s.rw s.rh s.raster) (t.planeContents s.dest) := by
  obtain ⟨u, htu, hu, hph, -, huy, hux, hstride, hbytes⟩ := scan_run h hp hi hy hx hst 22047 (by decide)
  have hend : u.tick.rowStep .scan = u.tick.scanPixel.withSeq u.nextPhase.seq := by
    rw [State.rowStep, State.scanStep, State.scanNext, scanPixel_seq, tick_seq, if_neg (by rw [hux]; decide),
      if_neg (by rw [huy]; decide), State.nextPhase, scanPixel_seq]
    rfl
  obtain ⟨hv, hpixel⟩ := scan_pixel hu hstride u.nextPhase.seq rfl
  refine ⟨_, reaches_add htu (hend ▸ hu.step hph rfl), hv, by simp [hph], ?_⟩
  rw [hpixel, hbytes, huy, hux, scanOrder_eq, List.range_succ (n := 22047), List.map_append, List.foldl_append]
  rfl

/-- FILL and SCAN leave EncodePlane of the raster in the destination. -/
theorem Encoding.encodes {s t : State} (h : Encoding s t) (hp : t.seq.ph = 0#6) (hi : t.seq.idx = 0#16) :
    ∃ u, Reaches (2757 + 22048) t u ∧ Encoding s u ∧ u.seq.ph = 2#6 ∧
      u.planeContents s.dest = encodePlane s.rw s.rh s.raster := by
  obtain ⟨u, htu, hu, hph, hidx, hy, hx, hstride, hfilled⟩ := h.fill hp hi
  obtain ⟨v, huv, hv, hvph, hscanned⟩ := hu.scan hph hidx hy hx hstride
  rw [hfilled] at hscanned
  exact ⟨v, reaches_add htu huv, hv, hvph, hscanned⟩

/-- SETLEN writes the destination's length. -/
theorem setLenStep_lens (s : State) :
    (s.dest = .plane0 → s.setLenStep.len0 = 2756#16 ∧ s.setLenStep.len1 = s.len1) ∧
    (s.dest = .plane1 → s.setLenStep.len1 = 2756#16 ∧ s.setLenStep.len0 = s.len0) := by
  constructor <;> intro h <;> rw [State.setLenStep, h] <;> exact ⟨rfl, rfl⟩

@[simp] theorem setLenStep_bufByte (s : State) (b : Buf) (k : Nat) : s.setLenStep.bufByte b k = s.bufByte b k :=
  bufByte_congr (by simp [State.setLenStep]) (by simp [State.setLenStep]) (by simp [State.setLenStep])
    (by simp [State.setLenStep]) b k

@[simp] theorem setLenStep_trace (s : State) : s.setLenStep.trace = s.trace := by simp [State.setLenStep]
@[simp] theorem setLenStep_op (s : State) : s.setLenStep.op = s.op := by simp [State.setLenStep]
@[simp] theorem setLenStep_view (s : State) : s.setLenStep.view = s.view := by simp [State.setLenStep, State.view]
@[simp] theorem setLenStep_seq (s : State) :
    s.setLenStep.seq = { s.seq with ph := s.seq.ph + 1#6, sub := 0#2, idx := 0#16 } := by simp [State.setLenStep]

/-- SETLEN and END: the return of an ENCODE that has scanned its raster. -/
theorem Encoding.ends {s t : State} (h : Encoding s t) (hp : t.seq.ph = 2#6) :
    ∃ u, Reaches 2 t u ∧ Ended t.tick.setLenStep .encode [] t.view u := by
  have hset := h.step (r := .setLen) hp rfl
  have hq : t.tick.setLenStep.quiet := quiet_of_tail h.quiet (by simp [State.setLenStep])
  have hrun := ran_here hq (by rw [setLenStep_seq])
  rw [setLenStep_op, setLenStep_seq, setLenStep_view, tick_seq, hp, tick_op, h.op] at hrun
  obtain ⟨u, htu, hu⟩ := hrun.finish rfl
  exact ⟨u, reaches_add hset htu, hu⟩

/-- Settles O36: acceptance, FILL and SCAN, and the two rows that end the table. -/
theorem encodeWritesTheEncodedPlane : Obligations.EncodeWritesTheEncodedPlane := by
  intro s w h hw hm p
  obtain ⟨rest, hsa⟩ := reaches_accepted (op := .encode) h nofun hw rfl rfl
  obtain ⟨hidle, hq, -⟩ := h
  have ha := encoding_self (s := (s.tick.withHost rest).accepted .encode (reqArg w)) rfl (quiet_of_tail hq rfl)
    (memOk_congr hm rfl rfl rfl) rfl
  obtain ⟨u, hau, hu, hph, hencoded⟩ := ha.encodes rfl rfl
  obtain ⟨t, hut, ht⟩ := hu.ends hph
  have hbytes : ∀ b k, t.bufByte b k = u.bufByte b k := fun b k => (ht.bytes b k).trans (setLenStep_bufByte u.tick b k)
  rw [hu.view] at ht
  have hlens := setLenStep_lens u.tick
  rw [show u.tick.dest = p from hu.dest, tick_len0, tick_len1, hu.len0, hu.len1, ← ht.len0, ← ht.len1] at hlens
  refine ⟨t, reaches_cast (reaches_add (reaches_add hsa hau) hut) (by omega), ?_, hlens.1, hlens.2,
    fun b k hb => (hbytes b k).trans (hu.other b k hb), ?_, ht.op, ht.err, ht.session, ht.gpio, ht.spi, ht.rst, ht.dc,
    ht.cs, ht.last⟩
  · exact (List.map_congr_left fun k _ => hbytes p k).trans hencoded
  · rw [ht.trace, setLenStep_trace, tick_trace, hu.trace, List.append_nil]
    rfl

end Sys2Proof.Machine

/-! Where STATE changes (60_exceptions R241, 41_protocol R163). -/

namespace Sys2Proof.Machine

/-- Settles O38: the step of a row changes STATE only at the two SETSTATE rows, and an idle block keeps it. -/
theorem sessionChangesOnlyAtSetState : Obligations.SessionChangesOnlyAtSetState := by
  intro s t h hne
  cases hr : s.inReset with
  | true =>
    rw [step_inReset hr] at h
    cases h
    exact .inl ⟨rfl, rfl⟩
  | false =>
    by_cases hop : s.op = .idle
    · exact absurd (step_idle_did h hr hop).session hne
    · obtain ⟨r, hrow, hdid⟩ := step_running_did h hr hop
      have hst : t.session = r.sessionAfter s.session := hdid.session
      rw [sessionAfter_at hrow] at hst
      split at hst
      · next hinit => exact .inr (.inl ⟨hinit.1, BitVec.eq_of_toNat_eq hinit.2, hst⟩)
      · split at hst
        · next hsleep => exact .inr (.inr ⟨hsleep.1, BitVec.eq_of_toNat_eq hsleep.2, hst⟩)
        · exact absurd hst hne

end Sys2Proof.Machine

/-! Hardware reset, the idle block, and the least time of the operations that wait (70_reset R260, R261, R280). -/

namespace Sys2Proof.Machine

/-- Settles O6: `step_idle_nil`, the tick written out. -/
theorem idleBlockWaits : Obligations.IdleBlockWaits :=
  fun _ hr hop hh => step_idle_nil hr hop hh

/-- After hardware reset no byte of a buffer is listed, so each reads as its free value of the new epoch (10_state R58). -/
theorem hardReset_bufByte (s : State) (b : Buf) (i : Nat) :
    s.hardReset.bufByte b i = Config.unwrittenByte (s.epoch + 1) b.number i := by
  have hbuf : s.hardReset.buf b = [] := by cases b <;> rfl
  rw [State.bufByte, hbuf]
  rfl

/-- Settles O7: the step is `hardReset`, which writes the table of 10_state R58 and keeps the inputs. -/
theorem hardwareResetFromAnywhere : Obligations.HardwareResetFromAnywhere := fun s h =>
  ⟨s.hardReset, step_inReset h, rfl, rfl, rfl, rfl, rfl, rfl, rfl, rfl, rfl, rfl, rfl, rfl, rfl, rfl, rfl, rfl, rfl, rfl,
    hardReset_bufByte s, rfl, rfl, fun _ => rfl, fun _ => rfl⟩

/-- The delays of two runs of events add up. -/
@[simp] theorem leastMs_append (es fs : List Event) : leastMs (es ++ fs) = leastMs es + leastMs fs := by
  induction es with
  | nil => exact (Nat.zero_add _).symm
  | cons e es ih => cases e <;> simp only [List.cons_append, leastMs, ih, Nat.add_assoc]

/-- A command frame takes no delay. -/
@[simp] theorem leastMs_cmdFrame (c : Byte) (x : XferResult) : leastMs (cmdFrame c x) = 0 := rfl

/-- Data frames take no delay, however many. -/
@[simp] theorem leastMs_byteFrames (bs : List Byte) : leastMs (byteFrames bs) = 0 := by
  induction bs with
  | nil => rfl
  | cons b bs ih => exact ih

/-- A busy-wait takes the poll delay once for each sample of BUSY at 0 (41_protocol R156). -/
@[simp] theorem leastMs_busyWait (m : Nat) : leastMs (busyWait m) = 100 * m := by
  induction m with
  | zero => rfl
  | succ m ih => simp only [busyWait, leastMs, ih, Nat.mul_succ, Nat.add_comm]

/-- The reset pulse takes its three delays (41_protocol R164). -/
@[simp] theorem leastMs_pulseEvents : leastMs pulseEvents = 402 := rfl

/-- INIT takes the reset pulse and its busy-wait (41_protocol R165). -/
theorem leastMs_initEvents (m : Nat) : leastMs (initEvents m) = 402 + 100 * m := by
  simp [initEvents, leastMs]

/-- DISPLAY and CLEAR take the settle delay and their busy-wait, whatever bytes they send (41_protocol R167, R168). -/
theorem leastMs_frameEvents (black red : List Byte) (m : Nat) : leastMs (frameEvents black red m) = 100 + 100 * m := by
  simp [frameEvents, leastMs]

/-- SLEEP takes its busy-wait and its settle delay (41_protocol R169). -/
theorem leastMs_sleepEvents (m : Nat) : leastMs (sleepEvents m) = 2000 + 100 * m := by
  simp [sleepEvents, leastMs, Nat.add_comm]

/-- Settles O58: the run of each operation, from the theorem that settles its events, and the delays of those events. -/
theorem leastTimesOfTheOperations : Obligations.LeastTimesOfTheOperations := by
  intro s w m h hb
  refine ⟨fun hs hw hx => ?_, fun hs => ⟨fun hw => ?_, fun hw hx => ?_, fun hw hx => ?_, fun hw => ?_, fun hw hx => ?_⟩⟩
  · obtain ⟨t, ht, htr, hop, -⟩ := initConfiguresThePanel s w m h hw hs hx hb
    exact ⟨_, t, _, ht, hop, hw ▸ htr, leastMs_initEvents m⟩
  · obtain ⟨t, ht, htr, hop, -⟩ := resetPulsesTheLine s w h hw hs
    exact ⟨_, t, _, ht, hop, hw ▸ htr, leastMs_pulseEvents⟩
  · obtain ⟨t, ht, htr, hop, -⟩ := displaySendsBothPlanes s w m h hw hs hx hb
    exact ⟨_, t, _, ht, hop, hw ▸ htr, leastMs_frameEvents _ _ m⟩
  · obtain ⟨t, ht, htr, hop, -⟩ := clearSendsTheFillByte s w m h hw hs hx hb
    exact ⟨_, t, _, ht, hop, hw ▸ htr, leastMs_frameEvents _ _ m⟩
  · obtain ⟨t, ht, htr, hop, -⟩ := readbusyWaitsForRelease s w m h hw hs hb
    exact ⟨_, t, _, ht, hop, hw ▸ htr, leastMs_busyWait m⟩
  · obtain ⟨t, ht, htr, hop, -⟩ := sleepReleasesAndHoldsLow s w m h hw hs hx hb
    exact ⟨_, t, _, ht, hop, hw ▸ htr, leastMs_sleepEvents m⟩

end Sys2Proof.Machine
